-- ==== Sys2Proof/Word.lean ====
section
/-! DEFINITION. The word types of the Frame Synchronizer and Decoder: a byte (R8) and a 32-bit pattern (R26). -/

namespace Sys2Proof

/-- R8: a byte is 8 bits, bit 0 the least significant. -/
abbrev Byte := BitVec 8

/-- R26, R84: the bit pattern of one IEEE-754 single-precision value; the block never interprets it (R136). -/
abbrev Word32 := BitVec 32

/-- R24: the contents of the candidate register, 34 bytes, element 0 the first to arrive. -/
abbrev CandidateFrame := Vector Byte 34

end Sys2Proof
end

