-- ==== Sys2Proof/Config.lean ====
section
/-! DEFINITION. What the source fixes (R6), what it leaves to the implementation (R7), and the model's free values. -/

namespace Sys2Proof

/-! ### Constants of R6 (UNVERIFIED literals, U7: log entry 22) -/

/-- `FRAME_LEN`. -/
abbrev frameLen : Nat := 34
/-- `MARKER_LEN`. -/
abbrev markerLen : Nat := 3
/-- `CSUM_OFF`, the offset of the checksum byte, and `CSUM_SPAN`, how many bytes before it the checksum covers. -/
abbrev csumOff : Nat := 33
/-- `RSVD_OFF`, the offset of the first reserved byte. -/
abbrev rsvdOff : Nat := 27
/-- `DISCARD_LEN`, the bytes one resynchronization step removes. -/
abbrev discardLen : Nat := 1
/-- `MARKER`, in arrival order (R6, R82). -/
def marker : List Byte := [0xBD, 0xDB, 0x0A]

/-- R7: the parameters the source leaves open (U11). `none` is the spec's ∞. DESIGN CHOICE: they are arguments of
the model held in State, so that a statement about every state covers every implementation (log entry 2). -/
structure Params where
  /-- `ACC_CAP`: most bytes the accumulator can hold. -/
  accCap : Option Nat
  /-- `Q_CAP`: most samples the hand-off queue can hold. -/
  qCap : Option Nat
  /-- `DIAG_W`: width of the checksum-error counter. -/
  diagW : Nat
  deriving DecidableEq, Repr

/-- R7: the domains of the parameters: `ACC_CAP ≥ 34` or ∞, `Q_CAP ≥ 1` or ∞, `DIAG_W ≥ 1`. -/
def Params.legal (p : Params) : Bool :=
  (match p.accCap with | none => true | some c => decide (34 ≤ c)) &&
  (match p.qCap with | none => true | some c => decide (1 ≤ c)) &&
  decide (1 ≤ p.diagW)

/-- DESIGN CHOICE (log entry 2): the parameters of `State.reset`. Unbounded storage is what level O behaves as, and
32 is the width R7 suggests; no statement rests on them. -/
def Config.resetParams : Params := { accCap := none, qCap := none, diagW := 32 }

/-- Free value (U4, log entry 10): what `out_data` shows while `out_valid = 0`. -/
opaque Config.freeOutData : Nat → BitVec 192

/-- Free value (log entry 8): the stream offset recorded for a level-O ChecksumMismatch of bytes that are not the
candidate that an extraction has returned. -/
opaque Config.freeOffset : Nat → Nat

/-- Free value (log entry 8): which of several outstanding candidates with the same 34 bytes a level-O `decode` is
given. -/
opaque Config.freeChoice : Nat → Nat

end Sys2Proof
end

