-- ==== Sys2Proof/Syntax.lean ====
section
/-! DEFINITION. The operations of the block: one constructor of `Instr` per row of spec/opcode_table.json, the records
they carry, and the signals and calls that select them (R89). -/

namespace Sys2Proof

/-- R26: a DecodedSample, six 32-bit patterns in the source's order. -/
structure Sample where
  gx : Word32
  gy : Word32
  gz : Word32
  ax : Word32
  ay : Word32
  az : Word32
  deriving DecidableEq, Repr

/-- R81: the fields of the FRAME format behind the constant marker. -/
structure FrameFields where
  /-- `W[215:24]`: the six float fields. -/
  payload : Sample
  /-- `W[263:216]`: the six reserved bytes, the first of them in the low bits. -/
  reserved : BitVec 48
  /-- `W[271:264]`. -/
  checksum : Byte
  deriving DecidableEq, Repr

/-- The operations, one per row of spec/opcode_table.json, in the table's order. -/
inductive Instr where
  /-- FRAME, the wire format (R80-R86). -/
  | frame (f : FrameFields)
  /-- `ingest`, level O (R110). -/
  | ingest (bytes : List Byte)
  /-- `try_extract_frame`, level O (R112). -/
  | tryExtractFrame
  /-- `decode`, level O (R130). -/
  | decode (bytes : List Byte)
  /-- INGEST, agent SRC (R111). -/
  | portIngest (b : Byte)
  /-- SCAN_EXTRACT, agent SYNC (R114). -/
  | scanExtract
  /-- SCAN_DISCARD, agent SYNC (R115). -/
  | scanDiscard
  /-- SCAN_WAIT, the hold of SYNC (R116). -/
  | scanWait
  /-- DEC_OK, agent DEC (R138). -/
  | decOk
  /-- DEC_BAD, agent DEC (R139). -/
  | decBad
  /-- POP, agent SINK (R158). -/
  | pop
  /-- START_OK, agent CTRL (R150). -/
  | startOk
  /-- START_FAIL, agent CTRL (R150). -/
  | startFail
  /-- STOP, agent CTRL (R151). -/
  | stop
  /-- SRC_END with cause EOS, agent SRC (R152). -/
  | srcEndEos
  /-- SRC_END with cause READ_FAIL, agent SRC (R152). -/
  | srcEndReadFail
  /-- RESET, agent CTRL (R153). -/
  | reset
  deriving DecidableEq, Repr

/-- R5: the level of description an operation belongs to, as the table's column "level" gives it. -/
inductive Level where
  | dataFormat
  | levelO
  | levelH
  deriving DecidableEq, Repr

/-- The table's column "level". -/
def Instr.level : Instr → Level
  | .frame _ => .dataFormat
  | .ingest _ => .levelO
  | .tryExtractFrame => .levelO
  | .decode _ => .levelO
  | .portIngest _ => .levelH
  | .scanExtract => .levelH
  | .scanDiscard => .levelH
  | .scanWait => .levelH
  | .decOk => .levelH
  | .decBad => .levelH
  | .pop => .levelH
  | .startOk => .levelH
  | .startFail => .levelH
  | .stop => .levelH
  | .srcEndEos => .levelH
  | .srcEndReadFail => .levelH
  | .reset => .levelH

/-- R222: the five agents of the level-H model. -/
inductive Agent where
  | src
  | sync
  | dec
  | sink
  | ctrl
  deriving DecidableEq, Repr

/-- The input signals at one clock edge (R37-R39). -/
structure Ports where
  rst : Bool := false
  start : Bool := false
  openOk : Bool := false
  stop : Bool := false
  srcEnd : Bool := false
  /-- R39: 0 end of stream, 1 read failure. -/
  srcEndCause : Bool := false
  inValid : Bool := false
  inData : Byte := 0
  outReady : Bool := false
  deriving DecidableEq, Repr

/-- What an event is selected by at the ports (R89): the input signals beside the three status outputs the selecting
conditions name. -/
structure PortView where
  running : Bool := false
  inReady : Bool := false
  outValid : Bool := false
  ports : Ports := {}
  deriving DecidableEq, Repr

/-- The calls of the software that uses the level-O contract (R89, R92). `sendFrame` presents one FRAME (log entry 5). -/
inductive Call where
  | sendFrame (f : FrameFields)
  | ingest (bytes : List Byte)
  | tryExtractFrame
  | decode (bytes : List Byte)
  deriving DecidableEq, Repr

/-- One thing the environment does (R20: inputs of the step relation): a clock cycle with its port inputs and the order
in which the agents' data steps of that cycle take effect (R215), or a level-O call. -/
inductive Input where
  | cycle (ports : Ports) (order : List Agent)
  | call (c : Call)
  deriving DecidableEq, Repr

/-- What an operation is read from (R89, R92): the bytes of a FRAME, the head of the accumulator, the candidate, the
port signals of a control, input or output event, or a procedure call. -/
inductive Request where
  | frame (bytes : List Byte)
  | window (bytes : List Byte)
  | candidate (bytes : List Byte)
  | control (v : PortView)
  | input (v : PortView)
  | output (v : PortView)
  | call (c : Call)
  deriving DecidableEq, Repr

end Sys2Proof
end

