-- ==== Sys2Proof/WellFormed.lean ====
section
/-! DEFINITION. Which operations the spec gives operands of the right form. -/

namespace Sys2Proof

/-- R130: a candidate is 34 bytes long and begins with the marker ("already matched by caller"). Every other operand
may take every value (R80-R85, R90, R110, R111). -/
def Instr.wf : Instr → Bool
  | .frame _ => true
  | .ingest _ => true
  | .tryExtractFrame => true
  | .decode bytes => bytes.length == frameLen && bytes.take markerLen == marker
  | .portIngest _ => true
  | .scanExtract => true
  | .scanDiscard => true
  | .scanWait => true
  | .decOk => true
  | .decBad => true
  | .pop => true
  | .startOk => true
  | .startFail => true
  | .stop => true
  | .srcEndEos => true
  | .srcEndReadFail => true
  | .reset => true

end Sys2Proof
end

