-- ==== Sys2Proof/Decode.lean ====
section
/-! DEFINITION. The FRAME format and the tests on it (R80-R88), what selects each operation (R89), the encoder that goes
the other way, and `decodeTableWord` for the host. -/

namespace Sys2Proof

/-! ### Arithmetic of the format -/

/-- R131: the XOR of all bytes of a sequence, built up byte by byte from `0x00`. -/
def xor8 (s : List Byte) : Byte := s.foldl (fun x b => x ^^^ b) 0x00

/-- R82: the first three bytes are the marker, compared as whole bytes. -/
def marked (bytes : List Byte) : Bool := bytes.take markerLen == marker

/-- R84: four bytes from offset `o`, little-endian. -/
def le32 (f : List Byte) (o : Nat) : Word32 :=
  f.getD (o + 3) 0 ++ f.getD (o + 2) 0 ++ f.getD (o + 1) 0 ++ f.getD o 0

/-- R81: six bytes from offset `o`, the first in the low bits. -/
def le48 (f : List Byte) (o : Nat) : BitVec 48 :=
  f.getD (o + 5) 0 ++ f.getD (o + 4) 0 ++ f.getD (o + 3) 0 ++ f.getD (o + 2) 0 ++ f.getD (o + 1) 0 ++ f.getD o 0

/-- R83, R84, R135: the six fields at `FIELD_OFF` 3, 7, 11, 15, 19, 23. -/
def sampleOf (f : List Byte) : Sample :=
  { gx := le32 f 3, gy := le32 f 7, gz := le32 f 11, ax := le32 f 15, ay := le32 f 19, az := le32 f 23 }

/-- R132: the XOR of the bytes before the checksum byte equals the checksum byte. -/
def checksumOk (f : List Byte) : Bool := xor8 (f.take csumOff) == f.getD csumOff 0

/-- R81: the fields of a 34-byte frame. -/
def fieldsOf (f : List Byte) : FrameFields :=
  { payload := sampleOf f, reserved := le48 f rsvdOff, checksum := f.getD csumOff 0 }

/-- R93: `bytes_le` of a 32-bit pattern. -/
def bytesLe32 (v : Word32) : List Byte :=
  [v.extractLsb' 0 8, v.extractLsb' 8 8, v.extractLsb' 16 8, v.extractLsb' 24 8]

/-- R81: the six reserved bytes in arrival order. -/
def bytesLe48 (v : BitVec 48) : List Byte :=
  [v.extractLsb' 0 8, v.extractLsb' 8 8, v.extractLsb' 16 8, v.extractLsb' 24 8, v.extractLsb' 32 8, v.extractLsb' 40 8]

/-- R93: the 24 field bytes of a sample in arrival order. -/
def sampleBytes (s : Sample) : List Byte :=
  bytesLe32 s.gx ++ bytesLe32 s.gy ++ bytesLe32 s.gz ++ bytesLe32 s.ax ++ bytesLe32 s.ay ++ bytesLe32 s.az

/-- R81, R93: the bytes of a frame before its checksum byte. -/
def frameBody (s : Sample) (reserved : BitVec 48) : List Byte := marker ++ sampleBytes s ++ bytesLe48 reserved

/-- R81: the 34 bytes of a frame in arrival order. -/
def frameBytes (f : FrameFields) : List Byte := frameBody f.payload f.reserved ++ [f.checksum]

/-- R93: the valid frame for given fields and reserved bytes. -/
def validFrame (s : Sample) (reserved : BitVec 48) : FrameFields :=
  { payload := s, reserved := reserved, checksum := xor8 (frameBody s reserved) }

/-- R81: the 34 bytes of the 272-bit word `W`, `W[8i+7 : 8i] = f[i]`. -/
def bytesOfWord (w : BitVec 272) : List Byte := (List.range frameLen).map fun i => w.extractLsb' (8 * i) 8

/-! ### What selects an operation (R87-R89) -/

/-- Why a request selects no operation. -/
inductive Reject where
  /-- Not 34 bytes: there is no other frame length (R80). -/
  | wrongLength
  /-- 34 bytes that do not begin with the marker are no FRAME (R82). -/
  | noMarker
  /-- No port event is asserted, or it is not taken in this state (R161). -/
  | notTaken
  deriving DecidableEq, Repr

/-- R87, R88: the class of the head of the accumulator. -/
def windowInstr (bytes : List Byte) : Instr :=
  if bytes.length < frameLen then .scanWait else if marked bytes then .scanExtract else .scanDiscard

/-- R87: the class of a candidate. -/
def candidateInstr (f : List Byte) : Instr := if checksumOk f then .decOk else .decBad

/-- R89, R154, R215: the control event of a clock cycle. `rst` wins; while running SRC_END comes before STOP (its cause
is the one kept); `start` is taken only when stopped. -/
def controlInstr (v : PortView) : Option Instr :=
  if v.ports.rst then some .reset
  else if v.running then
    if v.ports.srcEnd then some (if v.ports.srcEndCause then .srcEndReadFail else .srcEndEos)
    else if v.ports.stop then some .stop
    else none
  else if v.ports.start then some (if v.ports.openOk then .startOk else .startFail)
  else none

/-- R37, R89: INGEST exactly when `in_valid ∧ in_ready`. -/
def inputInstr (v : PortView) : Option Instr :=
  if v.ports.inValid && v.inReady then some (.portIngest v.ports.inData) else none

/-- R38, R89: POP exactly when `out_valid ∧ out_ready`. -/
def outputInstr (v : PortView) : Option Instr := if v.outValid && v.ports.outReady then some .pop else none

/-- R89: a procedure call. -/
def callInstr : Call → Instr
  | .sendFrame f => .frame f
  | .ingest bytes => .ingest bytes
  | .tryExtractFrame => .tryExtractFrame
  | .decode bytes => .decode bytes

/-- An event that is not taken selects nothing. -/
def takenOr (i : Option Instr) : Except Reject Instr :=
  match i with
  | some i => .ok i
  | none => .error .notTaken

/-- The operation a request selects, or why it selects none. -/
def decode : Request → Except Reject Instr
  | .frame bytes =>
    if bytes.length ≠ frameLen then .error .wrongLength
    else if marked bytes then .ok (.frame (fieldsOf bytes))
    else .error .noMarker
  | .window bytes => .ok (windowInstr bytes)
  | .candidate bytes => if bytes.length ≠ frameLen then .error .wrongLength else .ok (candidateInstr bytes)
  | .control v => takenOr (controlInstr v)
  | .input v => takenOr (inputInstr v)
  | .output v => takenOr (outputInstr v)
  | .call c => .ok (callInstr c)

/-- A request that selects the operation, written from R81, R88, R89 and R93: for the steps chosen by a window or a
candidate, one with zero bytes where the class leaves them free. -/
def encode : Instr → Request
  | .frame f => .frame (frameBytes f)
  | .ingest bytes => .call (.ingest bytes)
  | .tryExtractFrame => .call .tryExtractFrame
  | .decode bytes => .call (.decode bytes)
  | .portIngest b => .input { running := true, inReady := true, ports := { inValid := true, inData := b } }
  | .scanExtract => .window (marker ++ List.replicate 31 0)
  | .scanDiscard => .window (List.replicate 34 0)
  | .scanWait => .window []
  | .decOk => .candidate (marker ++ List.replicate 30 0 ++ [0x6C])
  | .decBad => .candidate (marker ++ List.replicate 31 0)
  | .pop => .output { outValid := true, ports := { outReady := true } }
  | .startOk => .control { ports := { start := true, openOk := true } }
  | .startFail => .control { ports := { start := true } }
  | .stop => .control { running := true, ports := { stop := true } }
  | .srcEndEos => .control { running := true, ports := { srcEnd := true } }
  | .srcEndReadFail => .control { running := true, ports := { srcEnd := true, srcEndCause := true } }
  | .reset => .control { ports := { rst := true } }

/-- The level a request is made at: FRAME bytes are the data format, a call is level O (`sendFrame` hands over the data
format), the rest are level H. -/
def Request.level : Request → Level
  | .frame _ => .dataFormat
  | .call (.sendFrame _) => .dataFormat
  | .call _ => .levelO
  | .window _ => .levelH
  | .candidate _ => .levelH
  | .control _ => .levelH
  | .input _ => .levelH
  | .output _ => .levelH

/-! ### The host's table words -/

/-- `n` bytes of a number, the least significant first; bits from `nbits` on are 0. -/
def bytesOfNat : Nat → Nat → Nat → List Byte
  | 0, _, _ => []
  | n + 1, nbits, w => BitVec.ofNat 8 (w % 2 ^ min 8 nbits) :: bytesOfNat n (nbits - 8) (w / 256)

/-- The 34 bytes of a table row's word, bit 0 in the first byte's least significant bit (R81). -/
def tableBytes (nbits w : Nat) : List Byte := bytesOfNat frameLen nbits w

/-- The operation the block's scanner reads from a 272-bit word at the head of the accumulator (R88). The rows FRAME,
SCAN_EXTRACT, DEC_OK and DEC_BAD share one match and mask; a word at the head is a window, so it selects a scan step
(log entry 16). -/
def decodeTableWord (nbits w : Nat) : Option Instr :=
  match decode (.window (tableBytes nbits w)) with
  | .ok i => some i
  | .error _ => none

end Sys2Proof
end

