-- ==== Sys2Proof/Machine/State.lean ====
section
/-! DEFINITION. The state of the block (R20), its ports, the model's own fields, the reset state, and the reasons to stop. -/

namespace Sys2Proof.Machine

/-- R30: the run state, `STOPPED = 0`, `RUNNING = 1`. -/
inductive RunState where
  | stopped
  | running
  deriving DecidableEq, Repr

/-- R152: the cause SRC gives with SRC_END. -/
inductive EndCause where
  | eos
  | readFail
  deriving DecidableEq, Repr

/-- R200, R211: the conditions, each with a code (`Condition.code`). -/
inductive Condition where
  | none
  | markerMismatch
  | checksumMismatch
  | streamOpenFailure
  | streamReadFailure
  | endOfStream
  | stopRequest
  deriving DecidableEq, Repr

/-- R212: the entries of the event history. -/
inductive Event where
  | ingest (b : Byte)
  | discard (p : Nat)
  | extract (p : Nat)
  | frameOk (p : Nat) (smp : Sample)
  | csumBad (p : Nat)
  | pop (smp : Sample)
  | startOk
  | openFail
  | stop
  | srcEnd (cause : EndCause)
  deriving DecidableEq, Repr

/-- What the last level-O call returned (R112, R130). DESIGN CHOICE: the caller's result has a place in State
(log entry 9). -/
inductive Reply where
  /-- No call has returned a value yet. -/
  | nothing
  /-- `try_extract_frame() -> none`. -/
  | noFrame
  /-- `try_extract_frame() -> frame@p`. -/
  | frame (p : Nat) (f : CandidateFrame)
  /-- `decode(f) -> sample`. -/
  | sample (smp : Sample)
  /-- `decode(f) -> ChecksumMismatch`. -/
  | checksumMismatch
  deriving DecidableEq, Repr

/-- What the block drives for the length of one clock cycle (R39, R213): the event pulses, the report of
StreamOpenFailure to the caller of start (R150) and the sample POP hands to SINK (R158). Log entry 15. -/
structure CycleOut where
  evMarkerMismatch : Bool := false
  evCsumMismatch : Bool := false
  evFrameOk : Bool := false
  stopEvent : Bool := false
  openFailure : Bool := false
  delivered : Option Sample := none
  deriving DecidableEq, Repr

/-- R20: the complete state at level H, architectural and ghost, then the ports (R37-R39), then the model's own fields. -/
structure State where
  /-- R21: the pending bytes, oldest first. -/
  acc : List Byte
  /-- R24: whether a candidate is in flight between SYNC and DEC. -/
  candValid : Bool
  /-- R24: the candidate register; meaningless while `candValid = false`. -/
  cand : CandidateFrame
  /-- R25: the hand-off queue, front first. -/
  outq : List Sample
  /-- R29: the saturating counter, at most `2^DIAG_W - 1`. -/
  csumErrCount : Nat
  /-- R30. -/
  run : RunState
  /-- R31: 3 bits, the code of why the block is not running. -/
  stopCause : BitVec 3
  /-- R27, ghost: the scan position. -/
  pos : Nat
  /-- R28, ghost: bytes accepted. -/
  nIn : Nat
  /-- R28, ghost: bytes discarded. -/
  nDisc : Nat
  /-- R28, ghost: candidates decoded. -/
  nOk : Nat
  /-- R28, ghost: candidates dropped. -/
  nBad : Nat
  /-- R28, R212, ghost: the events since reset. -/
  hist : List Event
  /-- R37-R39: the input signals sampled in the current clock cycle. -/
  ports : Ports
  /-- R39, R213: what the block drives in the current clock cycle. -/
  out : CycleOut
  /-- R7: the open parameters, model arguments (log entry 2). -/
  params : Params
  /-- The model's own: the result of the last level-O call (log entry 9). -/
  reply : Reply
  /-- R202: the candidates level-O `try_extract_frame` has returned and `decode` has not yet been given, newest first,
  each with the stream offset at which it started (log entry 23). -/
  taken : List (Nat × CandidateFrame)
  /-- The model's own: agents still to move in the current clock cycle (R215; log entry 1). -/
  turns : List Agent
  /-- The model's own: what the environment does from here on, oldest first (R20; log entry 1). -/
  inputs : List Input
  /-- The model's own: the counter at which free values are taken (log entries 8, 10). -/
  freeIx : Nat
  deriving DecidableEq, Repr

/-- R40, R240: the block right after RESET with given parameters. DESIGN CHOICE: `cand`, which R40 leaves unspecified,
holds 34 zero bytes (log entry 3); the model's own fields are empty (log entry 21). -/
def State.resetWith (p : Params) : State where
  acc := []
  candValid := false
  cand := Vector.replicate 34 0
  outq := []
  csumErrCount := 0
  run := .stopped
  stopCause := 0
  pos := 0
  nIn := 0
  nDisc := 0
  nOk := 0
  nBad := 0
  hist := []
  ports := {}
  out := {}
  params := p
  reply := .nothing
  taken := []
  turns := []
  inputs := []
  freeIx := 0

/-- R40: the machine right after reset (R241: a run begins here; log entry 17). -/
def State.reset : State := State.resetWith Config.resetParams

/-- Why the machine would fault: no reason exists. Section 3 of 93_implementation_defined.md: no byte sequence and no
sequence of port events drives the block into a fault, so the type is empty. -/
inductive Fault where
  deriving DecidableEq, Repr

/-- Why an operation has no meaning. -/
inductive Refusal where
  /-- Raised only by an arm of `exec` that has no meaning yet; none is left. Safe: the machine stops. -/
  | notModelled (mnemonic : String)
  /-- Raised by the level-O `decode` on a byte sequence that is not 34 bytes long (U3: "other lengths are refused").
  Safe: the machine stops where the spec gives no meaning. -/
  | notACandidate
  deriving DecidableEq, Repr

end Sys2Proof.Machine
end

