-- ==== Sys2Proof/Machine/Operands.lean ====
section
/-! DEFINITION. The implicit operands of the steps: the window at the head of the accumulator and the bytes of the
candidate (R57). -/

namespace Sys2Proof.Machine

/-- R10, R57: `MemRead(i, n)`, the bytes `acc[i..i+n)`, absent where the accumulator does not hold them all. -/
def State.memRead (s : State) (i n : Nat) : Option (List Byte) :=
  if i + n ≤ s.acc.length then some ((s.acc.drop i).take n) else none

/-- R114: the first 34 bytes of a sequence as a candidate, `cand[i] = acc[i]`. -/
def windowOf (bytes : List Byte) : CandidateFrame := Vector.ofFn fun i => bytes.getD i.val 0

/-- R24, R50: the bytes of the candidate register in frame-offset order. -/
def State.candBytes (s : State) : List Byte := s.cand.toList

/-- R138, R139: the offset in the stream of the candidate in `cand`. -/
def State.candPos (s : State) : Nat := s.pos - frameLen

/-- R38: the packing of a sample on `out_data`, `gx` in bits 31:0. -/
def packSample (smp : Sample) : BitVec 192 := smp.az ++ smp.ay ++ smp.ax ++ smp.gz ++ smp.gy ++ smp.gx

end Sys2Proof.Machine
end

