-- ==== Sys2Proof/Machine/Flags.lean ====
section
/-! DEFINITION. The derived status flags and output ports (R32, R38, R39) and the enabling condition of every level-H
step (R89). -/

namespace Sys2Proof.Machine

/-- Whether a store of the given capacity has room beside `n` entries; `none` is ∞ (R7). -/
def hasRoom (cap : Option Nat) (n : Nat) : Bool :=
  match cap with
  | none => true
  | some c => decide (n < c)

/-- R29: the largest value of a counter of `w` bits. -/
def counterMax (w : Nat) : Nat := 2 ^ w - 1

/-- R32: `running`. -/
def State.running (s : State) : Bool := s.run == .running

/-- R32: `has_window`. -/
def State.hasWindow (s : State) : Bool := decide (frameLen ≤ s.acc.length)

/-- R32: `marker_hit`. -/
def State.markerHit (s : State) : Bool := s.hasWindow && marked s.acc

/-- R32: `csum_ok`. -/
def State.csumOk (s : State) : Bool := s.candValid && checksumOk s.candBytes

/-- R32, R37: `in_ready`. -/
def State.inReady (s : State) : Bool := s.running && hasRoom s.params.accCap s.acc.length

/-- R32, R38: `out_valid`. -/
def State.outValid (s : State) : Bool := !s.outq.isEmpty

/-- R32: `q_full`. -/
def State.qFull (s : State) : Bool := !hasRoom s.params.qCap s.outq.length

/-- R38: `out_data`, the front of the queue; a free value while `out_valid = 0` (U4, log entry 10). -/
def State.outData (s : State) : BitVec 192 :=
  match s.outq with
  | smp :: _ => packSample smp
  | [] => Config.freeOutData s.freeIx

/-- R89: what the port events are selected by in this state and clock cycle. -/
def State.view (s : State) : PortView :=
  { running := s.running, inReady := s.inReady, outValid := s.outValid, ports := s.ports }

/-- R113: the condition common to both scan steps and the hold. -/
def State.scanFree (s : State) : Bool := s.running && !s.candValid

/-- R89, R111: enabling of INGEST. -/
def State.canIngest (s : State) : Bool := s.inReady

/-- R89, R114: enabling of SCAN_EXTRACT. -/
def State.canExtract (s : State) : Bool := s.scanFree && s.hasWindow && marked s.acc

/-- R89, R115: enabling of SCAN_DISCARD. -/
def State.canDiscard (s : State) : Bool := s.scanFree && s.hasWindow && !marked s.acc

/-- R89, R138: enabling of DEC_OK. -/
def State.canDecOk (s : State) : Bool := s.running && s.candValid && checksumOk s.candBytes && !s.qFull

/-- R89, R139: enabling of DEC_BAD. -/
def State.canDecBad (s : State) : Bool := s.running && s.candValid && !checksumOk s.candBytes

/-- R89, R158: enabling of POP. -/
def State.canPop (s : State) : Bool := s.outValid

/-- R89, R130, R154: whether an operation is enabled. A level-O call always is, but for `decode` of a sequence that is
not 34 bytes long; SCAN_WAIT is the hold below 34 bytes. -/
def State.enabled (s : State) : Instr → Bool
  | .frame _ => true
  | .ingest _ => true
  | .tryExtractFrame => true
  | .decode bytes => bytes.length == frameLen
  | .portIngest _ => s.canIngest
  | .scanExtract => s.canExtract
  | .scanDiscard => s.canDiscard
  | .scanWait => !s.hasWindow
  | .decOk => s.canDecOk
  | .decBad => s.canDecBad
  | .pop => s.canPop
  | .startOk => !s.running
  | .startFail => !s.running
  | .stop => s.running
  | .srcEndEos => s.running
  | .srcEndReadFail => s.running
  | .reset => true

end Sys2Proof.Machine
end

