-- ==== Sys2Proof/Machine/Ops.lean ====
section
/-! DEFINITION. The named operations over the state: the accesses of R57, the history, the conditions of R200-R206 (none
is a trap, R210, so there is no saved state and no return), and the level-O operations of R110, R112, R130 and R160. -/

namespace Sys2Proof.Machine

/-! ### Conditions and events -/

/-- R211: the code of a condition. -/
def Condition.code : Condition → BitVec 3
  | .none => 0
  | .markerMismatch => 1
  | .checksumMismatch => 2
  | .streamOpenFailure => 3
  | .streamReadFailure => 4
  | .endOfStream => 5
  | .stopRequest => 6

/-- R212: append one event to the history. -/
def State.record (s : State) (e : Event) : State := { s with hist := s.hist ++ [e] }

/-- R29, R202: count a ChecksumMismatch, saturating. -/
def State.countCsumError (s : State) : State :=
  { s with nBad := s.nBad + 1, csumErrCount := min (s.csumErrCount + 1) (counterMax s.params.diagW) }

/-- R204-R206, R216: the shared effect of a stopping condition of a running block. -/
def State.halt (s : State) (c : Condition) (e : Event) : State :=
  { s with
    run := .stopped
    stopCause := c.code
    hist := s.hist ++ [e]
    out := { s.out with stopEvent := true } }

/-! ### The accumulator and the queue (R57) -/

/-- R57: the accumulator's form at level H, at most `ACC_CAP` bytes (R22). -/
abbrev Memory.wf (s : State) : Prop := ∀ c, s.params.accCap = some c → s.acc.length ≤ c

/-- R57: `Append(b)`, with the ghost `n_in` of R111. -/
def State.append (s : State) (b : Byte) : State := { s with acc := s.acc ++ [b], nIn := s.nIn + 1 }

/-- R57: `Remove(n)` at the head. -/
def State.remove (s : State) (n : Nat) : State := { s with acc := s.acc.drop n, pos := s.pos + n }

/-- R10: `emit(smp)`. -/
def State.emit (s : State) (smp : Sample) : State := { s with outq := s.outq ++ [smp] }

/-- R115, R112: remove the head byte and record its MarkerMismatch; the pulse is the level-H step's own. -/
def State.discardHead (s : State) : State :=
  { (s.record (.discard s.pos)).remove discardLen with nDisc := s.nDisc + 1 }

/-! ### Level O (log entry 6) -/

/-- R110: `ingest(bytes)`. -/
def State.ingestAll (s : State) (bytes : List Byte) : State :=
  { s with acc := s.acc ++ bytes, nIn := s.nIn + bytes.length }

/-- R112, the branch that returns a frame; where the candidate started is kept for R202. -/
def State.takeFrame (s : State) : State :=
  { s.remove frameLen with
    reply := .frame s.pos (windowOf s.acc)
    taken := (s.pos, windowOf s.acc) :: s.taken }

/-- R112: the loop of `try_extract_frame`, with at most `fuel` discards. -/
def tryExtractLoop : Nat → State → State
  | 0, s => { s with reply := .noFrame }
  | fuel + 1, s =>
    if s.hasWindow then
      if marked s.acc then s.takeFrame else tryExtractLoop fuel s.discardHead
    else { s with reply := .noFrame }

/-- R112: `try_extract_frame()`; each iteration removes a byte, so `count` bounds them. -/
def State.tryExtract (s : State) : State := tryExtractLoop s.acc.length s

/-- R202: the stream offset at which the candidate handed to `decode` started. Its 34 bytes say which of the outstanding
candidates it is; among several with the same bytes, and for bytes no extraction returned, a free value (log entry 8). -/
def State.offsetOf (s : State) (bytes : List Byte) : Nat :=
  match (s.taken.filter fun c => c.2.toList == bytes).map (·.1) with
  | [] => Config.freeOffset s.freeIx
  | [p] => p
  | p :: more => (p :: more).getD (Config.freeChoice s.freeIx % (more.length + 1)) p

/-- R130: `decode(f)` of the 34 bytes of the candidate that started at `p`, which is then no longer outstanding. -/
def State.decodeAt (s : State) (p : Nat) (bytes : List Byte) : State :=
  let u := { s with taken := s.taken.erase (p, windowOf bytes) }
  if checksumOk bytes then { u with nOk := s.nOk + 1, reply := .sample (sampleOf bytes) }
  else { u.countCsumError.record (.csumBad p) with reply := .checksumMismatch }

/-- R130: `decode(f)` called with 34 bytes. -/
def State.decodeBytes (s : State) (bytes : List Byte) : State :=
  { s.decodeAt (s.offsetOf bytes) bytes with freeIx := s.freeIx + 1 }

/-- R160: deliver the sample the last call returned, if it returned one, to the hand-off. -/
def State.deliverReply (s : State) : State :=
  match s.reply with
  | .sample smp => s.emit smp
  | _ => s

/-- R160: the loop of PUMP: `try_extract_frame`, then `decode`, until no frame comes. -/
def pumpLoop : Nat → State → State
  | 0, s => s
  | fuel + 1, s =>
    match s.tryExtract.reply with
    | .frame p f => pumpLoop fuel (s.tryExtract.decodeAt p f.toList).deliverReply
    | _ => s.tryExtract

/-- R160, R92: `PUMP(bytes)`; every round but the last removes a frame, so `count` bounds them. -/
def State.pump (s : State) (bytes : List Byte) : State :=
  pumpLoop ((s.ingestAll bytes).acc.length + 1) (s.ingestAll bytes)

end Sys2Proof.Machine
end

