-- ==== Sys2Proof/Machine/Control.lean ====
section
/-! DEFINITION. The control and delivery family (42_control_and_delivery.md): POP, START, STOP, SRC_END, RESET. A request
that is not taken changes nothing (R161, log entry 11). -/

namespace Sys2Proof.Machine

/-- POP, R158. -/
def execPop (s : State) : Host.Outcome State Fault Refusal :=
  match s.outq with
  | smp :: rest =>
    .next { s.record (.pop smp) with outq := rest, out := { s.out with delivered := some smp } }
  | [] => .next s

/-- START with `open_ok = 1`, R150. -/
def execStartOk (s : State) : Host.Outcome State Fault Refusal :=
  if s.running then .next s
  else .next { s.record .startOk with run := .running, stopCause := Condition.code .none }

/-- START with `open_ok = 0`, R150, R203. -/
def execStartFail (s : State) : Host.Outcome State Fault Refusal :=
  if s.running then .next s
  else .next { s.record .openFail with
               stopCause := Condition.code .streamOpenFailure, out := { s.out with openFailure := true } }

/-- STOP, R151, R206. -/
def execStop (s : State) : Host.Outcome State Fault Refusal :=
  if s.running then .next (s.halt .stopRequest .stop) else .next s

/-- SRC_END with cause EOS, R152, R205. -/
def execSrcEndEos (s : State) : Host.Outcome State Fault Refusal :=
  if s.running then .next (s.halt .endOfStream (.srcEnd .eos)) else .next s

/-- SRC_END with cause READ_FAIL, R152, R204. -/
def execSrcEndReadFail (s : State) : Host.Outcome State Fault Refusal :=
  if s.running then .next (s.halt .streamReadFailure (.srcEnd .readFail)) else .next s

/-- RESET, R153. What is not the block's own stays: the parameters, the signals of the clock cycle, what the
environment does next, and the counter of free values (log entry 20). -/
def execReset (s : State) : Host.Outcome State Fault Refusal :=
  .next { State.resetWith s.params with ports := s.ports, inputs := s.inputs, freeIx := s.freeIx }

end Sys2Proof.Machine
end

