-- ==== Sys2Proof/Machine/Decoder.lean ====
section
/-! DEFINITION. The decoder family (41_decoder.md): `decode` at level O, DEC_OK and DEC_BAD at level H. A step that is not
enabled does not happen (R11, log entry 11). -/

namespace Sys2Proof.Machine

/-- `decode(f)`, R130. A sequence that is not 34 bytes long is refused, and 34 bytes with another head are checksummed
just the same (U3, log entry 7). -/
def execDecode (bytes : List Byte) (s : State) : Host.Outcome State Fault Refusal :=
  if bytes.length = frameLen then .next (s.decodeBytes bytes) else .refused .notACandidate

/-- DEC_OK, R138. -/
def execDecOk (s : State) : Host.Outcome State Fault Refusal :=
  if s.canDecOk then
    .next { (s.emit (sampleOf s.candBytes)).record (.frameOk s.candPos (sampleOf s.candBytes)) with
            candValid := false, nOk := s.nOk + 1, out := { s.out with evFrameOk := true } }
  else .next s

/-- DEC_BAD, R139. -/
def execDecBad (s : State) : Host.Outcome State Fault Refusal :=
  if s.canDecBad then
    .next { s.countCsumError.record (.csumBad s.candPos) with
            candValid := false, out := { s.out with evCsumMismatch := true } }
  else .next s

end Sys2Proof.Machine
end

