-- ==== Sys2Proof/Machine/Synchronizer.lean ====
section
/-! DEFINITION. The synchronizer family (40_synchronizer.md): `ingest` and `try_extract_frame` at level O, INGEST,
SCAN_EXTRACT, SCAN_DISCARD and the hold SCAN_WAIT at level H. A step that is not enabled does not happen (R11, log
entry 11). -/

namespace Sys2Proof.Machine

/-- `ingest(bytes)`, R110. -/
def execIngest (bytes : List Byte) (s : State) : Host.Outcome State Fault Refusal := .next (s.ingestAll bytes)

/-- `try_extract_frame()`, R112. -/
def execTryExtractFrame (s : State) : Host.Outcome State Fault Refusal := .next s.tryExtract

/-- INGEST, R111. -/
def execPortIngest (b : Byte) (s : State) : Host.Outcome State Fault Refusal :=
  if s.canIngest then .next ((s.append b).record (.ingest b)) else .next s

/-- SCAN_EXTRACT, R114. -/
def execScanExtract (s : State) : Host.Outcome State Fault Refusal :=
  if s.canExtract then
    .next { (s.record (.extract s.pos)).remove frameLen with cand := windowOf s.acc, candValid := true }
  else .next s

/-- SCAN_DISCARD, R115. -/
def execScanDiscard (s : State) : Host.Outcome State Fault Refusal :=
  if s.canDiscard then .next { s.discardHead with out := { s.out with evMarkerMismatch := true } } else .next s

/-- SCAN_WAIT, R116: "it changes nothing and records nothing". -/
def execScanWait (s : State) : Host.Outcome State Fault Refusal := .next s

end Sys2Proof.Machine
end

