-- ==== Sys2Proof/Machine/Wire.lean ====
section
/-! DEFINITION. The FRAME row (R80-R86): the wire format is no operation of its own; presenting a frame to the block is the
level-O PUMP of its 34 bytes (R92, R160, R176). -/

namespace Sys2Proof.Machine

/-- FRAME. DESIGN CHOICE (log entry 5): the bytes of R81 go through `ingest`, `try_extract_frame`, `decode` until no frame
is left. -/
def execFrame (f : FrameFields) (s : State) : Host.Outcome State Fault Refusal := .next (s.pump (frameBytes f))

end Sys2Proof.Machine
end

