-- ==== Sys2Proof/Machine/Dispatch.lean ====
section
/-! DEFINITION. One arm per constructor of `Instr`: the meaning of each operation. -/

namespace Sys2Proof.Machine

def exec (i : Instr) (s : State) : Host.Outcome State Fault Refusal :=
  match i with
  | .frame f => Sys2Proof.Machine.execFrame f s
  | .ingest bytes => Sys2Proof.Machine.execIngest bytes s
  | .tryExtractFrame => Sys2Proof.Machine.execTryExtractFrame s
  | .decode bytes => Sys2Proof.Machine.execDecode bytes s
  | .portIngest b => Sys2Proof.Machine.execPortIngest b s
  | .scanExtract => Sys2Proof.Machine.execScanExtract s
  | .scanDiscard => Sys2Proof.Machine.execScanDiscard s
  | .scanWait => Sys2Proof.Machine.execScanWait s
  | .decOk => Sys2Proof.Machine.execDecOk s
  | .decBad => Sys2Proof.Machine.execDecBad s
  | .pop => Sys2Proof.Machine.execPop s
  | .startOk => Sys2Proof.Machine.execStartOk s
  | .startFail => Sys2Proof.Machine.execStartFail s
  | .stop => Sys2Proof.Machine.execStop s
  | .srcEndEos => Sys2Proof.Machine.execSrcEndEos s
  | .srcEndReadFail => Sys2Proof.Machine.execSrcEndReadFail s
  | .reset => Sys2Proof.Machine.execReset s

end Sys2Proof.Machine
end

