-- ==== Sys2Proof/Machine/Select.lean ====
section
/-! DEFINITION. Which operation happens next (R89, R215): the block fetches no instructions (R66), so it is read from the turns
left in the clock cycle, the port signals, the state, and the environment's script. -/

namespace Sys2Proof.Machine

/-- R89, R222: the data step an agent can take in this state, if any. -/
def agentInstr (s : State) : Agent → Option Instr
  | .src => inputInstr s.view
  | .sync => if s.scanFree && s.hasWindow then some (windowInstr s.acc) else none
  | .dec => if s.canDecOk || s.canDecBad then some (candidateInstr s.candBytes) else none
  | .sink => outputInstr s.view
  | .ctrl => none

/-- R215(3): whether an agent may move in the clock cycle that begins in this state. A good candidate behind a full
queue may still go after a POP of the same cycle (log entry 12). -/
def eligible (s : State) : Agent → Bool
  | .dec => s.running && s.candValid
  | a => (agentInstr s a).isSome

/-- The first of the agents that can move, its operation, and the agents left after it: each moves at most once. -/
def firstMove (s : State) : List Agent → Option (Instr × List Agent)
  | [] => none
  | a :: rest =>
    match agentInstr s a with
    | some i => some (i, rest.filter (· != a))
    | none => firstMove s rest

/-- R215(3): the turns of the clock cycle that begins in this state. The two handshakes of R37 and R38 take effect
whether or not the order names them (log entry 12). -/
def cycleTurns (s : State) (order : List Agent) : List Agent := (order ++ [Agent.src, Agent.sink]).filter (eligible s)

/-- The operation of an agent's turn, or, when no agent can move, the hold: SCAN_WAIT when fewer than 34 bytes are
pending (R116), else none (log entry 13). -/
def takeTurn (s : State) (agents : List Agent) : Option Instr × State :=
  match firstMove s agents with
  | some (i, rest) => (some i, { s with turns := rest })
  | none => (if s.hasWindow then none else some .scanWait, { s with turns := [] })

/-- R215: a new clock cycle with the given port signals. RESET is alone in its cycle; STOP, SRC_END and START come
before the data steps. -/
def beginCycle (s : State) (ports : Ports) (order : List Agent) : Option Instr × State :=
  let s := { s with ports := ports, out := {}, freeIx := s.freeIx + 1 }
  match controlInstr s.view with
  | some i => (some i, { s with turns := cycleTurns s order })
  | none => takeTurn s (cycleTurns s order)

/-- The next operation and the state it acts on: a turn left in the current cycle, else the environment's next entry;
after the last entry the ports are idle and DEC and SYNC go on (log entry 13). -/
def fetch (s : State) : Option Instr × State :=
  match firstMove s s.turns with
  | some (i, rest) => (some i, { s with turns := rest })
  | none =>
    match s.inputs with
    | .cycle ports order :: later => beginCycle { s with turns := [], inputs := later } ports order
    | .call c :: later =>
      (some (callInstr c), { s with turns := [], inputs := later, ports := {}, out := {}, freeIx := s.freeIx + 1 })
    | [] => beginCycle { s with turns := [] } {} [.dec, .sync]

/-- For `State.withFetchWord`: the bytes at the head of a running block's accumulator, with SYNC to move (log
entry 4). -/
def placeWindow (s : State) (bytes : List Byte) : State :=
  { s with acc := bytes, candValid := false, run := .running, turns := [.sync] }

end Sys2Proof.Machine
end

