-- ==== Sys2Proof/Machine/Step.lean ====
section
/-! DEFINITION. One step: the operation `fetch` finds is executed on the state it leaves; when there is none, the block
holds. -/

namespace Sys2Proof.Machine

/-- R11, R222: one atomic step, one level-O call, or one hold. -/
def step (s : State) : Host.Outcome State Fault Refusal :=
  match fetch s with
  | (some i, t) => exec i t
  | (none, t) => .next t

/-- The host's table word as the window that the next step scans (log entry 4). -/
def State.withFetchWord (s : State) (nbits w : Nat) : State := placeWindow s (tableBytes nbits w)

end Sys2Proof.Machine
end

