-- ==== Sys2Proof/Machine/Stream.lean ====
section
/-! DEFINITION. Level S (R5): the function `Scan` from a byte sequence to the samples emitted and the residue (R170), its
trace, and what the event history says of the stream (R181). -/

namespace Sys2Proof.Machine

/-- R170, the events of the trace `ScanT`. -/
inductive ScanEvent where
  | discard (p : Nat)
  | frameOk (p : Nat) (smp : Sample)
  | csumBad (p : Nat)
  deriving DecidableEq, Repr

/-- R170: what `ScanT(s, p)` returns. -/
structure ScanResult where
  out : List Sample
  res : List Byte
  trace : List ScanEvent
  deriving DecidableEq, Repr

/-- R170: `ScanT(s, p)` with at most `fuel` scan steps. -/
def scanFuel : Nat → List Byte → Nat → ScanResult
  | 0, s, _ => { out := [], res := s, trace := [] }
  | fuel + 1, s, p =>
    if s.length < frameLen then { out := [], res := s, trace := [] }
    else if marked s then
      let f := s.take frameLen
      let r := scanFuel fuel (s.drop frameLen) (p + frameLen)
      if checksumOk f then
        { out := sampleOf f :: r.out, res := r.res, trace := .frameOk p (sampleOf f) :: r.trace }
      else { r with trace := .csumBad p :: r.trace }
    else
      let r := scanFuel fuel (s.drop discardLen) (p + discardLen)
      { r with trace := .discard p :: r.trace }

/-- R170: `ScanT(s, p)`; every call is on a shorter sequence, so the length bounds the calls. -/
def scanT (s : List Byte) (p : Nat) : ScanResult := scanFuel s.length s p

/-- R170: `Scan(s)`. -/
def scan (s : List Byte) : ScanResult := scanT s 0

/-- R178: the scan positions a scan of `s` visits: the start, one byte after a discard, 34 bytes after an extraction. -/
inductive Visits (s : List Byte) : Nat → Prop where
  | start : Visits s 0
  | discard (p : Nat) : Visits s p → frameLen ≤ (s.drop p).length → marked (s.drop p) = false →
      Visits s (p + discardLen)
  | extract (p : Nat) : Visits s p → frameLen ≤ (s.drop p).length → marked (s.drop p) = true →
      Visits s (p + frameLen)

/-- R170: how many events of a trace are discards, samples, and checksum failures. -/
def discards (t : List ScanEvent) : Nat := t.countP fun e => match e with | .discard _ => true | _ => false
def frameOks (t : List ScanEvent) : Nat := t.countP fun e => match e with | .frameOk _ _ => true | _ => false
def csumBads (t : List ScanEvent) : Nat := t.countP fun e => match e with | .csumBad _ => true | _ => false

/-- R181: `S`, the bytes ingested so far, as the history has them. -/
def ingested (h : List Event) : List Byte :=
  h.filterMap fun e => match e with | .ingest b => some b | _ => none

/-- R181: `E`, the samples emitted so far, as the history has them. -/
def emitted (h : List Event) : List Sample :=
  h.filterMap fun e => match e with | .frameOk _ smp => some smp | _ => none

/-- R61: the samples popped so far, as the history has them. -/
def popped (h : List Event) : List Sample :=
  h.filterMap fun e => match e with | .pop smp => some smp | _ => none

/-- R181: `pend`, the sample of a valid candidate still in the slot. -/
def State.pending (s : State) : List Sample :=
  if s.candValid && checksumOk s.candBytes then [sampleOf s.candBytes] else []

end Sys2Proof.Machine
end

