-- ==== Sys2Proof/Machine/Trace.lean ====
section
/-! DEFINITION. The notation of R92 for traces, and its pseudo-operations FEED, DRAIN and POPALL: abbreviations for
sequences of steps, not new steps (PUMP is `State.pump`). -/

namespace Sys2Proof.Machine

/-- A trace of steps, executed in order; it ends at the first stop. -/
def runTrace : List Instr → State → Host.Outcome State Fault Refusal
  | [], s => .next s
  | i :: rest, s =>
    match exec i s with
    | .next t => runTrace rest t
    | .fault r => .fault r
    | .refused r => .refused r

/-- R92: `POPALL` on a queue of at most `n` samples. -/
def popAll (n : Nat) : List Instr := List.replicate n .pop

/-- R92: the steps DRAIN is made of. -/
def drainSteps : List Instr := [.scanDiscard, .scanExtract, .decOk, .decBad]

/-- Enabled steps of DEC and SYNC, at most `fuel`, until `stop` holds or none is enabled. -/
def workUntil (stop : State → Bool) : Nat → State → State
  | 0, s => s
  | fuel + 1, s =>
    if stop s then s
    else
      match firstMove s [.dec, .sync] with
      | none => s
      | some (i, _) =>
        match exec i s with
        | .next t => workUntil stop fuel t
        | .fault _ => s
        | .refused _ => s

/-- A bound on the steps of DEC and SYNC without new bytes: every scan step removes a byte and every decode step follows
an extraction (R119, R183). -/
def State.workBound (s : State) : Nat := 2 * s.acc.length + 1

/-- R92: `DRAIN`. -/
def State.drain (s : State) : State := workUntil (fun _ => false) s.workBound s

/-- R92: the wait of an `IN` until `in_ready`, in which DEC and SYNC go on (log entry 24). -/
def State.awaitReady (s : State) : State := workUntil State.inReady s.workBound s

/-- R92: `FEED <bytes>`: each `IN` waits until `in_ready`. With the state it answers the bytes still offered, which are
none unless the block is stopped or waits for the sink (log entry 24). -/
def feed : List Byte → State → State × List Byte
  | [], s => (s, [])
  | b :: rest, s =>
    if s.awaitReady.inReady then
      match exec (.portIngest b) s.awaitReady with
      | .next t => feed rest t
      | .fault _ => (s.awaitReady, b :: rest)
      | .refused _ => (s.awaitReady, b :: rest)
    else (s.awaitReady, b :: rest)

/-- R92: `PUMP <bytes>` at level H, in the order that drains only where an `IN` has to wait, and at the end. -/
def State.pumpSteps (s : State) (bytes : List Byte) : State × List Byte :=
  ((feed bytes s).1.drain, (feed bytes s).2)

/-- R92, R174: `FEED <bytes>` interleaved in any way with enabled steps among `allowed`, up to a state with no byte left to
feed and nothing left to DRAIN. `PUMP <bytes>` at level H is any interleaving with `drainSteps`; R174 admits POP too. -/
inductive Interleaved (allowed : List Instr) : List Byte → State → State → Prop where
  | input {s u t : State} (b : Byte) {bytes : List Byte} : s.inReady = true → exec (.portIngest b) s = .next u →
      Interleaved allowed bytes u t → Interleaved allowed (b :: bytes) s t
  | work {s u t : State} (i : Instr) {bytes : List Byte} : i ∈ allowed → s.enabled i = true → exec i s = .next u →
      Interleaved allowed bytes u t → Interleaved allowed bytes s t
  | done {s : State} : (∀ i ∈ drainSteps, s.enabled i = false) → Interleaved allowed [] s s

end Sys2Proof.Machine
end

