-- ==== Sys2Proof/Safety.lean ====
section
/-! DEFINITION. What the spec promises of every reachable state (R31, R34, R61, R181) and the premise under which the
level-H promises are made. -/

namespace Sys2Proof.Machine

/-- Only clock cycles are left in the script, no level-O call: the level-H promises speak of such runs (log entry 6). -/
def State.levelHOnly (s : State) : Bool :=
  s.inputs.all fun x => match x with | .cycle _ _ => true | .call _ => false

/-- No call left in the script hands `decode` a sequence that is not 34 bytes long (U3). -/
def State.callsHaveCandidates (s : State) : Bool :=
  s.inputs.all fun x => match x with | .call (.decode bytes) => bytes.length == frameLen | _ => true

/-- R34: the invariants (a) to (g), with the ingested bytes and the POP steps read from the history. -/
structure StateInv (s : State) : Prop where
  accFits : Memory.wf s
  queueFits : ∀ c, s.params.qCap = some c → s.outq.length ≤ c
  bytesIn : s.nIn = s.pos + s.acc.length
  posBalance : s.pos = s.nDisc + frameLen * (s.nOk + s.nBad + s.candValid.toNat)
  candMarked : s.candValid = true → marked s.candBytes = true
  errCount : s.csumErrCount = min s.nBad (counterMax s.params.diagW)
  popCount : (popped s.hist).length = s.nOk - s.outq.length ∧ s.outq.length ≤ s.nOk
  accIsStream : s.nIn = (ingested s.hist).length ∧ s.acc = (ingested s.hist).drop s.pos
  candIsStream : s.candValid = true → s.candBytes = ((ingested s.hist).drop (s.pos - frameLen)).take frameLen

/-- R181: the refinement invariant between the steps and `Scan`. -/
def StreamInv (s : State) : Prop :=
  emitted s.hist ++ s.pending ++ (scan s.acc).out = (scan (ingested s.hist)).out ∧
  (scan s.acc).res = (scan (ingested s.hist)).res

/-- R61: the samples popped, followed by the queue, are the samples emitted. -/
def FifoInv (s : State) : Prop := popped s.hist ++ s.outq = emitted s.hist

/-- R28: each ghost counter is the number of its events in the history. -/
structure CountInv (s : State) : Prop where
  bytesIn : s.nIn = (ingested s.hist).length
  discarded : s.nDisc = s.hist.countP fun e => match e with | .discard _ => true | _ => false
  decoded : s.nOk = (emitted s.hist).length
  dropped : s.nBad = s.hist.countP fun e => match e with | .csumBad _ => true | _ => false

/-- R31: the codes 1, 2 and 7 never appear in `stop_cause`, and it is 0 while running. -/
def StopCauseInv (s : State) : Prop :=
  s.stopCause ∈ [0, 3, 4, 5, 6].map (BitVec.ofNat 3) ∧ (s.run = .running → s.stopCause = 0)

/-- R34(b), R34(e): the part of the invariants that level-O calls keep as well. -/
def BalanceInv (s : State) : Prop :=
  s.nIn = s.pos + s.acc.length ∧ s.csumErrCount = min s.nBad (counterMax s.params.diagW)

/-- R181, R157: nothing is left to scan or decode, `cand_valid = 0` and `count < 34`. In a running block no SYNC or DEC step
is enabled then; the converse fails for a good candidate behind a full queue (R183; log entry 25). -/
def State.drained (s : State) : Bool := !s.candValid && !s.hasWindow

end Sys2Proof.Machine
end

