-- ==== Sys2Proof/Certificates/Slice0/Obligations.lean ====
section
/-! DEFINITION. The statements for the provers. Each formalises numbered rules of spec/, named in its docstring. -/

open Sys2Proof
open Sys2Proof.Machine

/-! ### The format (R80-R93) -/

/-- R81, R84, R89, R93: every well-formed operation, with every operand at every value, is what its request selects. -/
def Obligations.DecodeOfEncode : Prop := ∀ i : Instr, i.wf = true → decode (encode i) = .ok i

/-- R80, R81, R82: exactly the 34-byte sequences that begin with the marker are frames, and no bit of one is dropped. -/
def Obligations.FrameBytesDecodeAndReencode : Prop :=
  ∀ bytes : List Byte,
    (bytes.length ≠ 34 → decode (.frame bytes) = .error .wrongLength) ∧
    (bytes.length = 34 → bytes.take 3 ≠ [0xBD, 0xDB, 0x0A] → decode (.frame bytes) = .error .noMarker) ∧
    (bytes.length = 34 → bytes.take 3 = [0xBD, 0xDB, 0x0A] →
      ∃ f, decode (.frame bytes) = .ok (.frame f) ∧ frameBytes f = bytes)

/-- R81: each field is one slice of the 272-bit word of the frame. -/
def Obligations.FrameFieldsAreWordSlices : Prop :=
  ∀ w : BitVec 272,
    (bytesOfWord w).length = 34 ∧
    (∀ i, i < 34 → (bytesOfWord w).getD i 0 = w.extractLsb' (8 * i) 8) ∧
    fieldsOf (bytesOfWord w) =
      { payload :=
          { gx := w.extractLsb' 24 32, gy := w.extractLsb' 56 32, gz := w.extractLsb' 88 32,
            ax := w.extractLsb' 120 32, ay := w.extractLsb' 152 32, az := w.extractLsb' 184 32 }
        reserved := w.extractLsb' 216 48
        checksum := w.extractLsb' 264 8 } ∧
    (marked (bytesOfWord w) = true ↔ w.extractLsb' 0 24 = 0x0ADBBD) ∧
    (checksumOk (bytesOfWord w) = true ↔ w.extractLsb' 264 8 = xor8 ((bytesOfWord w).take 33))

/-- R87, R88: the match and mask of the window classes, and the class of a short window. -/
def Obligations.WindowClassFollowsMatchAndMask : Prop :=
  (∀ w : BitVec 272, decode (.window (bytesOfWord w)) =
    .ok (if w &&& 0xFFFFFF = 0x0ADBBD then .scanExtract else .scanDiscard)) ∧
  (∀ bytes : List Byte, bytes.length < 34 → decode (.window bytes) = .ok .scanWait) ∧
  (∀ bytes rest : List Byte, bytes.length = 34 → decode (.window (bytes ++ rest)) = decode (.window bytes))

/-- Sanity: some words written out from R81, R88 and R89, and R215(2) for SRC_END beside STOP (vectors V1, V3, V6, K15 of
95_test_vectors.md). -/
def Obligations.WrittenWordsDecode : Prop :=
  decode (.frame ([0xBD, 0xDB, 0x0A, 0x00, 0x00, 0x80, 0x3F] ++ List.replicate 16 0 ++ [0xCD, 0xCC, 0x1C, 0x41] ++
      List.replicate 6 0 ++ [0x8F])) =
    .ok (.frame { payload := ⟨0x3F800000, 0, 0, 0, 0, 0x411CCCCD⟩, reserved := 0, checksum := 0x8F }) ∧
  decode (.window ([0xBD, 0xDB, 0x0A] ++ List.replicate 31 0xFF)) = .ok .scanExtract ∧
  decode (.window ([0xBD, 0xDB, 0x0B] ++ List.replicate 31 0)) = .ok .scanDiscard ∧
  decode (.candidate ([0xBD, 0xDB, 0x0A] ++ List.replicate 30 0 ++ [0x6C])) = .ok .decOk ∧
  decode (.candidate ([0xBD, 0xDB, 0x0A] ++ List.replicate 30 0 ++ [0x6D])) = .ok .decBad ∧
  decode (.control { running := true, ports := { srcEnd := true, srcEndCause := true, stop := true } }) =
    .ok .srcEndReadFail ∧
  decode (.control { ports := { start := true, openOk := true } }) = .ok .startOk

/-- R131: `xor8` bit by bit, its recursion, and its laws. -/
def Obligations.XorIsColumnParity : Prop :=
  ∀ (s t : List Byte) (b c d : Byte),
    xor8 [] = 0x00 ∧ xor8 (s ++ [b]) = xor8 s ^^^ b ∧ xor8 (s ++ t) = xor8 s ^^^ xor8 t ∧
    (∀ k, k < 8 → ((xor8 s).getLsbD k = true ↔ (s.countP fun x => x.getLsbD k) % 2 = 1)) ∧
    (s.Perm t → xor8 s = xor8 t) ∧
    (xor8 s = c ↔ xor8 (s ++ [c]) = 0x00) ∧
    b ^^^ c ^^^ d = b ^^^ (c ^^^ d) ∧ b ^^^ c = c ^^^ b ∧ b ^^^ b = 0x00 ∧ b ^^^ 0x00 = b

/-- R86, R132: the two forms of the checksum test. -/
def Obligations.ValidIffWholeFrameXorsToZero : Prop :=
  ∀ f : List Byte, f.length = 34 →
    ((candidateInstr f = .decOk ↔ xor8 (f.take 33) = f.getD 33 0) ∧
     (candidateInstr f = .decOk ↔ xor8 f = 0x00) ∧
     (candidateInstr f = .decBad ↔ xor8 (f.take 33) ≠ f.getD 33 0))

/-- R133(a), R177: one corrupt byte (so one flipped bit) in a valid frame: it is never decoded. -/
def Obligations.OneCorruptByteIsNeverDecoded : Prop :=
  ∀ (f : List Byte) (i : Nat) (b : Byte),
    f.length = 34 → marked f = true → checksumOk f = true → i < 34 → b ≠ f.getD i 0 →
    (i < 3 → windowInstr (f.set i b) = .scanDiscard ∧
      scan (f.set i b) = { out := [], res := (f.set i b).drop 1, trace := [.discard 0] }) ∧
    (3 ≤ i → windowInstr (f.set i b) = .scanExtract ∧ candidateInstr (f.set i b) = .decBad ∧
      scan (f.set i b) = { out := [], res := [], trace := [.csumBad 0] })

/-- R133(b), R259: a changed frame with its marker intact is accepted exactly when every bit column has an even number
of flips. -/
def Obligations.EvenFlipsPerColumnAreAccepted : Prop :=
  ∀ f g : List Byte, f.length = 34 → g.length = 34 → marked f = true → marked g = true → checksumOk f = true →
    (checksumOk g = true ↔
      ∀ k, k < 8 →
        ((List.range 31).countP fun j =>
          (f.getD (3 + j) 0).getLsbD k != (g.getD (3 + j) 0).getLsbD k) % 2 = 0)

/-- R93: the bytes of the frame a test bench builds, its checksum, and that it is accepted and carries its fields. -/
def Obligations.BuiltFrameIsValid : Prop :=
  ∀ (smp : Sample) (r0 r1 r2 r3 r4 r5 : Byte),
    let f := validFrame smp (r5 ++ r4 ++ r3 ++ r2 ++ r1 ++ r0)
    let bytesLe := fun v : Word32 => [v.extractLsb' 0 8, v.extractLsb' 8 8, v.extractLsb' 16 8, v.extractLsb' 24 8]
    let covered := bytesLe smp.gx ++ bytesLe smp.gy ++ bytesLe smp.gz ++ bytesLe smp.ax ++ bytesLe smp.ay ++
      bytesLe smp.az ++ [r0, r1, r2, r3, r4, r5]
    frameBytes f = [0xBD, 0xDB, 0x0A] ++ covered ++ [xor8 ([0xBD, 0xDB, 0x0A] ++ covered)] ∧
    (frameBytes f).length = 34 ∧ f.checksum = 0x6C ^^^ xor8 covered ∧
    windowInstr (frameBytes f) = .scanExtract ∧ candidateInstr (frameBytes f) = .decOk ∧ sampleOf (frameBytes f) = smp

/-- R85: the reserved bytes and the checksum byte reach no output: frames that agree on the 24 field bytes give the
same sample. -/
def Obligations.ReservedBytesReachNoOutput : Prop :=
  ∀ f g : List Byte, (f.drop 3).take 24 = (g.drop 3).take 24 → sampleOf f = sampleOf g

/-! ### Level O (R110, R112, R130, R160) -/

/-- R110: `ingest` appends and counts, and nothing else. -/
def Obligations.IngestAppends : Prop :=
  ∀ (s : State) (a b : List Byte),
    exec (.ingest a) s = .next { s with acc := s.acc ++ a, nIn := s.nIn + a.length } ∧
    exec (.ingest []) s = .next s ∧
    runTrace [.ingest a, .ingest b] s = exec (.ingest (a ++ b)) s

/-- R112: `try_extract_frame` discards byte by byte up to the first marked window and returns it, or returns none with
fewer than 34 bytes left; one MarkerMismatch is recorded per discarded byte. -/
def Obligations.TryExtractFindsFirstMarker : Prop :=
  ∀ s : State,
    (∀ k, k + 34 ≤ s.acc.length → (∀ j, j < k → marked (s.acc.drop j) = false) → marked (s.acc.drop k) = true →
      exec .tryExtractFrame s = .next { s with
        acc := s.acc.drop (k + 34)
        pos := s.pos + k + 34
        nDisc := s.nDisc + k
        hist := s.hist ++ (List.range k).map (fun j => .discard (s.pos + j))
        reply := .frame (s.pos + k) (windowOf (s.acc.drop k))
        taken := (s.pos + k, windowOf (s.acc.drop k)) :: s.taken } ∧
      (windowOf (s.acc.drop k)).toList = (s.acc.drop k).take 34) ∧
    ((∀ j, j + 34 ≤ s.acc.length → marked (s.acc.drop j) = false) →
      exec .tryExtractFrame s = .next { s with
        acc := s.acc.drop (s.acc.length - 33)
        pos := s.pos + (s.acc.length - 33)
        nDisc := s.nDisc + (s.acc.length - 33)
        hist := s.hist ++ (List.range (s.acc.length - 33)).map (fun j => .discard (s.pos + j))
        reply := .noFrame })

/-- R130, R202: `decode` on 34 bytes returns the sample or the error. The offset recorded with the error is that at which
the candidate started: whenever the bytes are those of an outstanding candidate, it is the offset of one that has these
bytes, which is then no longer outstanding; for other bytes any value (log entries 6, 7, 8, 9, 23). -/
def Obligations.DecodeReturnsSampleOrError : Prop :=
  ∀ (s : State) (bytes : List Byte), bytes.length = 34 →
    (windowOf bytes).toList = bytes ∧
    ∃ p, (∀ q, (q, windowOf bytes) ∈ s.taken → (p, windowOf bytes) ∈ s.taken) ∧
      (xor8 (bytes.take 33) = bytes.getD 33 0 →
        exec (.decode bytes) s = .next { s with
          nOk := s.nOk + 1
          taken := s.taken.erase (p, windowOf bytes)
          reply := .sample { gx := le32 bytes 3, gy := le32 bytes 7, gz := le32 bytes 11,
                             ax := le32 bytes 15, ay := le32 bytes 19, az := le32 bytes 23 }
          freeIx := s.freeIx + 1 }) ∧
      (xor8 (bytes.take 33) ≠ bytes.getD 33 0 →
        exec (.decode bytes) s = .next { s with
          nBad := s.nBad + 1
          csumErrCount := min (s.csumErrCount + 1) (2 ^ s.params.diagW - 1)
          taken := s.taken.erase (p, windowOf bytes)
          hist := s.hist ++ [.csumBad p]
          reply := .checksumMismatch
          freeIx := s.freeIx + 1 })

/-- U3 of 93_implementation_defined.md (log entry 7): `decode` is refused on any other length. -/
def Obligations.DecodeRefusesOtherLengths : Prop :=
  ∀ (s : State) (bytes : List Byte), bytes.length ≠ 34 → exec (.decode bytes) s = .refused .notACandidate

/-- R160, R170: PUMP delivers the samples of `Scan` and leaves its residue; the rest of the block is untouched. That PUMP,
which is level O, acts on the same state is log entry 6. -/
def Obligations.PumpDeliversScan : Prop :=
  ∀ (s : State) (bytes : List Byte),
    (s.pump bytes).acc = (scan (s.acc ++ bytes)).res ∧
    (s.pump bytes).outq = s.outq ++ (scan (s.acc ++ bytes)).out ∧
    (s.pump bytes).nIn = s.nIn + bytes.length ∧
    (s.pump bytes).nDisc = s.nDisc + discards (scan (s.acc ++ bytes)).trace ∧
    (s.pump bytes).nOk = s.nOk + frameOks (scan (s.acc ++ bytes)).trace ∧
    (s.pump bytes).nBad = s.nBad + csumBads (scan (s.acc ++ bytes)).trace ∧
    (s.pump bytes).pos + (s.pump bytes).acc.length = s.pos + s.acc.length + bytes.length ∧
    (s.pump bytes).acc.length ≤ 33 ∧
    (s.pump bytes).run = s.run ∧ (s.pump bytes).stopCause = s.stopCause ∧ (s.pump bytes).cand = s.cand ∧
    (s.pump bytes).candValid = s.candValid ∧ (s.pump bytes).out = s.out ∧ (s.pump bytes).params = s.params ∧
    (s.pump bytes).inputs = s.inputs ∧ (s.pump bytes).turns = s.turns ∧ (s.pump bytes).ports = s.ports

/-- R173: chunking does not affect output. -/
def Obligations.ChunkingDoesNotAffectOutput : Prop :=
  ∀ (s : State) (chunks : List (List Byte)), s.acc = [] →
    (chunks.foldl State.pump s).outq = s.outq ++ (scan chunks.flatten).out ∧
    (chunks.foldl State.pump s).acc = (scan chunks.flatten).res

/-- R160, R176, log entry 5 (the model's choice for the FRAME row): presenting a frame to a block with an empty
accumulator emits its sample exactly when the checksum is right, and otherwise costs the 34 bytes; behind other pending
bytes it is what PUMP does. -/
def Obligations.FrameIsPumped : Prop :=
  ∀ (s : State) (f : FrameFields),
    (∃ t, exec (.frame f) s = .next t ∧ t.acc = (scan (s.acc ++ frameBytes f)).res ∧
      t.outq = s.outq ++ (scan (s.acc ++ frameBytes f)).out ∧ t.nIn = s.nIn + 34) ∧
    (s.acc = [] → xor8 (frameBody f.payload f.reserved) = f.checksum →
      exec (.frame f) s = .next { s with
        outq := s.outq ++ [f.payload]
        pos := s.pos + 34
        nIn := s.nIn + 34
        nOk := s.nOk + 1
        reply := .noFrame }) ∧
    (s.acc = [] → xor8 (frameBody f.payload f.reserved) ≠ f.checksum →
      exec (.frame f) s = .next { s with
        pos := s.pos + 34
        nIn := s.nIn + 34
        nBad := s.nBad + 1
        csumErrCount := min (s.csumErrCount + 1) (2 ^ s.params.diagW - 1)
        hist := s.hist ++ [.csumBad s.pos]
        reply := .noFrame })

/-- R176: the concrete scenario, at level O: `ingest`, `try_extract_frame`, `decode` (vector V1 has the bytes). -/
def Obligations.ConcreteScenario : Prop :=
  ∀ s : State, s.acc = [] →
    (s.pump ([0xBD, 0xDB, 0x0A] ++ [0x00, 0x00, 0x80, 0x3F] ++ List.replicate 16 0x00 ++ [0xCD, 0xCC, 0x1C, 0x41] ++
      List.replicate 6 0x00 ++ [0x8F])).outq =
    s.outq ++ [{ gx := 0x3F800000, gy := 0, gz := 0, ax := 0, ay := 0, az := 0x411CCCCD }]

/-- R117: one `try_extract_frame` that returns a frame is a run of SCAN_DISCARD steps and one SCAN_EXTRACT; one that returns
none is a SCAN_DISCARD step for each byte beyond 33 and then the hold SCAN_WAIT. That the call and the steps write one
history, in which the call records its discards but no EvExtract, is log entry 6; that the call's result stands in `reply`
is log entry 9. -/
def Obligations.TryExtractIsScanSteps : Prop :=
  ∀ s : State, s.run = .running → s.candValid = false →
    (∀ k, k + 34 ≤ s.acc.length → (∀ j, j < k → marked (s.acc.drop j) = false) → marked (s.acc.drop k) = true →
      ∃ t u, runTrace (List.replicate k .scanDiscard ++ [.scanExtract]) s = .next t ∧
        exec .tryExtractFrame s = .next u ∧
        t.acc = u.acc ∧ t.pos = u.pos ∧ t.nDisc = u.nDisc ∧ t.hist = u.hist ++ [.extract (s.pos + k)] ∧
        t.candValid = true ∧ u.reply = .frame (s.pos + k) t.cand ∧ t.outq = u.outq) ∧
    ((∀ j, j + 34 ≤ s.acc.length → marked (s.acc.drop j) = false) →
      ∃ t u, runTrace (List.replicate (s.acc.length - 33) .scanDiscard ++ [.scanWait]) s = .next t ∧
        exec .tryExtractFrame s = .next u ∧
        t.acc = u.acc ∧ t.pos = u.pos ∧ t.nDisc = u.nDisc ∧ t.hist = u.hist ∧
        t.candValid = false ∧ u.reply = .noFrame ∧ t.outq = u.outq ∧
        t.hasWindow = false ∧ agentInstr t .sync = none)

/-! ### Level H, one step each -/

/-- R111: INGEST, and the byte that is not taken. -/
def Obligations.IngestStepTakesOneByte : Prop :=
  ∀ (s : State) (b : Byte),
    (s.run = .running → (∀ c, s.params.accCap = some c → s.acc.length < c) →
      exec (.portIngest b) s =
        .next { s with acc := s.acc ++ [b], nIn := s.nIn + 1, hist := s.hist ++ [.ingest b] }) ∧
    (s.run = .stopped → exec (.portIngest b) s = .next s) ∧
    (∀ c, s.params.accCap = some c → c ≤ s.acc.length → exec (.portIngest b) s = .next s)

/-- R114: SCAN_EXTRACT. -/
def Obligations.ScanExtractTakesWindow : Prop :=
  ∀ s : State, s.run = .running → s.candValid = false → 34 ≤ s.acc.length →
    s.acc.getD 0 0 = 0xBD → s.acc.getD 1 0 = 0xDB → s.acc.getD 2 0 = 0x0A →
    ∃ f : CandidateFrame, f.toList = s.acc.take 34 ∧
      exec .scanExtract s = .next { s with
        cand := f
        candValid := true
        acc := s.acc.drop 34
        hist := s.hist ++ [.extract s.pos]
        pos := s.pos + 34 }

/-- R115: SCAN_DISCARD. -/
def Obligations.ScanDiscardDropsOneByte : Prop :=
  ∀ s : State, s.run = .running → s.candValid = false → 34 ≤ s.acc.length →
    ¬(s.acc.getD 0 0 = 0xBD ∧ s.acc.getD 1 0 = 0xDB ∧ s.acc.getD 2 0 = 0x0A) →
    exec .scanDiscard s = .next { s with
      acc := s.acc.drop 1
      hist := s.hist ++ [.discard s.pos]
      pos := s.pos + 1
      nDisc := s.nDisc + 1
      out := { s.out with evMarkerMismatch := true } }

/-- R116, R121: fewer than 34 pending bytes are left alone, whatever they are. -/
def Obligations.ShortWindowWaits : Prop :=
  ∀ s : State, s.acc.length < 34 →
    exec .scanWait s = .next s ∧ exec .scanExtract s = .next s ∧ exec .scanDiscard s = .next s ∧
    agentInstr s .sync = none

/-- R138: DEC_OK, and its hold behind a full queue. -/
def Obligations.DecOkEmitsSample : Prop :=
  ∀ s : State, s.run = .running → s.candValid = true →
    xor8 (s.cand.toList.take 33) = s.cand.toList.getD 33 0 →
    ((∀ c, s.params.qCap = some c → s.outq.length < c) →
      ∃ smp : Sample,
        smp = { gx := le32 s.cand.toList 3, gy := le32 s.cand.toList 7, gz := le32 s.cand.toList 11,
                ax := le32 s.cand.toList 15, ay := le32 s.cand.toList 19, az := le32 s.cand.toList 23 } ∧
        exec .decOk s = .next { s with
          outq := s.outq ++ [smp]
          candValid := false
          nOk := s.nOk + 1
          hist := s.hist ++ [.frameOk (s.pos - 34) smp]
          out := { s.out with evFrameOk := true } }) ∧
    (∀ c, s.params.qCap = some c → c ≤ s.outq.length → exec .decOk s = .next s)

/-- R139: DEC_BAD; it needs no room in the queue, and the counter saturates (R29). -/
def Obligations.DecBadDropsCandidate : Prop :=
  ∀ s : State, s.run = .running → s.candValid = true →
    xor8 (s.cand.toList.take 33) ≠ s.cand.toList.getD 33 0 →
    exec .decBad s = .next { s with
      candValid := false
      nBad := s.nBad + 1
      csumErrCount := min (s.csumErrCount + 1) (2 ^ s.params.diagW - 1)
      hist := s.hist ++ [.csumBad (s.pos - 34)]
      out := { s.out with evCsumMismatch := true } }

/-- R158: POP in either run state, and on an empty queue. -/
def Obligations.PopDeliversFront : Prop :=
  ∀ s : State,
    (∀ smp rest, s.outq = smp :: rest →
      exec .pop s = .next { s with
        outq := rest
        hist := s.hist ++ [.pop smp]
        out := { s.out with delivered := some smp } }) ∧
    (s.outq = [] → exec .pop s = .next s)

/-- R150, R161: both outcomes of START from a stopped block, and `start` while running. -/
def Obligations.StartSucceedsOrReports : Prop :=
  ∀ s : State,
    (s.run = .stopped →
      exec .startOk s = .next { s with run := .running, stopCause := 0, hist := s.hist ++ [.startOk] } ∧
      exec .startFail s = .next { s with
        stopCause := 3, hist := s.hist ++ [.openFail], out := { s.out with openFailure := true } }) ∧
    (s.run = .running → exec .startOk s = .next s ∧ exec .startFail s = .next s)

/-- R151: STOP of a running block, that no SRC, SYNC or DEC step is enabled in the state after it while POP stays so, and
`stop` while stopped. -/
def Obligations.StopHaltsBlock : Prop :=
  ∀ s : State,
    (s.run = .running →
      exec .stop s = .next { s with
        run := .stopped, stopCause := 6, hist := s.hist ++ [.stop], out := { s.out with stopEvent := true } }) ∧
    (∀ t, s.run = .running → exec .stop s = .next t →
      t.inReady = false ∧ t.canExtract = false ∧ t.canDiscard = false ∧ t.canDecOk = false ∧ t.canDecBad = false ∧
      t.canPop = s.canPop) ∧
    (s.run = .stopped → exec .stop s = .next s)

/-- R152: SRC_END with either cause, that no SRC, SYNC or DEC step is enabled in the state after it while POP stays so,
and `src_end` while stopped. -/
def Obligations.SourceEndHaltsBlock : Prop :=
  ∀ s : State,
    (s.run = .running →
      exec .srcEndEos s = .next { s with
        run := .stopped, stopCause := 5, hist := s.hist ++ [.srcEnd .eos], out := { s.out with stopEvent := true } } ∧
      exec .srcEndReadFail s = .next { s with
        run := .stopped, stopCause := 4, hist := s.hist ++ [.srcEnd .readFail]
        out := { s.out with stopEvent := true } }) ∧
    (∀ t, s.run = .running → (exec .srcEndEos s = .next t ∨ exec .srcEndReadFail s = .next t) →
      t.inReady = false ∧ t.canExtract = false ∧ t.canDiscard = false ∧ t.canDecOk = false ∧ t.canDecBad = false ∧
      t.canPop = s.canPop) ∧
    (s.run = .stopped → exec .srcEndEos s = .next s ∧ exec .srcEndReadFail s = .next s)

/-- R153: RESET in every state, and twice (log entry 20: what is not the block's own stays). -/
def Obligations.ResetClearsBlock : Prop :=
  ∀ s : State, ∃ t, exec .reset s = .next t ∧
    t.acc = [] ∧ t.candValid = false ∧ t.outq = [] ∧ t.csumErrCount = 0 ∧ t.run = .stopped ∧ t.stopCause = 0 ∧
    t.pos = 0 ∧ t.nIn = 0 ∧ t.nDisc = 0 ∧ t.nOk = 0 ∧ t.nBad = 0 ∧ t.hist = [] ∧ t.out = {} ∧ t.turns = [] ∧
    t.params = s.params ∧ t.ports = s.ports ∧ t.inputs = s.inputs ∧ t.freeIx = s.freeIx ∧
    exec .reset t = .next t

/-! ### The machine -/

/-- R40, R240: the reset values the spec gives, and that nothing runs until START: no SYNC, DEC or SINK step is enabled
and the block is not ready for a byte. -/
def Obligations.ResetStateValues : Prop :=
  ∀ s : State, (s = State.reset ∨ ∃ p, s = State.resetWith p) →
    s.acc = [] ∧ s.candValid = false ∧ s.outq = [] ∧ s.csumErrCount = 0 ∧ s.run = .stopped ∧ s.stopCause = 0 ∧
    s.pos = 0 ∧ s.nIn = 0 ∧ s.nDisc = 0 ∧ s.nOk = 0 ∧ s.nBad = 0 ∧ s.hist = [] ∧
    s.inReady = false ∧ s.outValid = false ∧ s.running = false ∧ s.out.stopEvent = false ∧
    s.out.evMarkerMismatch = false ∧ s.out.evCsumMismatch = false ∧ s.out.evFrameOk = false ∧
    ∀ a, agentInstr s a = none

/-- R154: the run-state machine, for every level-H operation: each of them answers. An operation that does not pulse
`stop_event` leaves it as the clock cycle has it so far; RESET lowers it. -/
def Obligations.RunStateMachine : Prop :=
  ∀ (i : Instr) (s : State), i.level = .levelH → ∃ t, exec i s = .next t ∧
    (t.run, t.stopCause, t.out.stopEvent) =
      match i, s.run with
      | .reset, _ => (.stopped, 0, false)
      | .startOk, .stopped => (.running, 0, s.out.stopEvent)
      | .startFail, .stopped => (.stopped, 3, s.out.stopEvent)
      | .stop, .running => (.stopped, 6, true)
      | .srcEndReadFail, .running => (.stopped, 4, true)
      | .srcEndEos, .running => (.stopped, 5, true)
      | _, r => (r, s.stopCause, s.out.stopEvent)

/-- R11, R161: a level-H operation whose enabling condition (R89) is false changes nothing. -/
def Obligations.HeldStepChangesNothing : Prop :=
  ∀ (i : Instr) (s : State),
    (match i with
     | .portIngest _ => s.inReady = false
     | .scanExtract => ¬(s.run = .running ∧ s.candValid = false ∧ 34 ≤ s.acc.length ∧ marked s.acc = true)
     | .scanDiscard => ¬(s.run = .running ∧ s.candValid = false ∧ 34 ≤ s.acc.length ∧ marked s.acc = false)
     | .scanWait => True
     | .decOk => ¬(s.run = .running ∧ s.candValid = true ∧ checksumOk s.candBytes = true ∧ s.qFull = false)
     | .decBad => ¬(s.run = .running ∧ s.candValid = true ∧ checksumOk s.candBytes = false)
     | .pop => s.outq = []
     | .startOk => s.run = .running
     | .startFail => s.run = .running
     | .stop => s.run = .stopped
     | .srcEndEos => s.run = .stopped
     | .srcEndReadFail => s.run = .stopped
     | _ => False) →
    exec i s = .next s

/-- R64, R151, R154: a stopped block is frozen. No step but RESET changes the accumulator, the candidate, the scan position
or the counters; the queue is only shortened, by POP; it starts to run only by START, which alone changes `stop_cause`; and
only these record anything. -/
def Obligations.StoppedBlockIsFrozen : Prop :=
  ∀ s t : State, s.levelHOnly = true → s.run = .stopped → step s = .next t →
    let op := (fetch s).1
    op = some .reset ∨
    (t.acc = s.acc ∧ t.candValid = s.candValid ∧ t.cand = s.cand ∧ t.pos = s.pos ∧ t.nIn = s.nIn ∧
      t.nDisc = s.nDisc ∧ t.nOk = s.nOk ∧ t.nBad = s.nBad ∧ t.csumErrCount = s.csumErrCount ∧
      (t.outq = s.outq ∨ (op = some .pop ∧ ∃ smp, s.outq = smp :: t.outq)) ∧
      (t.run = .stopped ∨ op = some .startOk) ∧
      (t.stopCause = s.stopCause ∨ op = some .startOk ∨ op = some .startFail) ∧
      (t.hist = s.hist ∨ op = some .pop ∨ op = some .startOk ∨ op = some .startFail))

/-- R113, R137: at most one step of SYNC and DEC is enabled in any state. -/
def Obligations.AtMostOneScanOrDecodeStep : Prop :=
  ∀ s : State, [s.canExtract, s.canDiscard, s.canDecOk, s.canDecBad].countP id ≤ 1

/-- R183: a running block whose SYNC and DEC both hold waits for bytes or for the sink, and it does hold then. -/
def Obligations.RunningBlockHoldsOnlyForBytesOrSink : Prop :=
  ∀ s : State, s.run = .running →
    ((s.canExtract = false ∧ s.canDiscard = false ∧ s.canDecOk = false ∧ s.canDecBad = false) ↔
      ((s.candValid = false ∧ s.acc.length < 34) ∨
       (s.candValid = true ∧ checksumOk s.candBytes = true ∧ ∃ c, s.params.qCap = some c ∧ c ≤ s.outq.length)))

/-- R38: the packing of the front sample on `out_data`. -/
def Obligations.OutDataShowsFront : Prop :=
  ∀ (s : State) (smp : Sample) (rest : List Sample), s.outq = smp :: rest →
    s.outValid = true ∧
    s.outData.extractLsb' 0 32 = smp.gx ∧ s.outData.extractLsb' 32 32 = smp.gy ∧ s.outData.extractLsb' 64 32 = smp.gz ∧
    s.outData.extractLsb' 96 32 = smp.ax ∧ s.outData.extractLsb' 128 32 = smp.ay ∧
    s.outData.extractLsb' 160 32 = smp.az

/-! ### Steps -/

/-- A step runs what was fetched: for SYNC the operation the window at the head of the accumulator decodes to, for a
call the operation it decodes to; and it holds when nothing was fetched. -/
def Obligations.StepRunsDecodedOperation : Prop :=
  ∀ s : State,
    (∀ i t, fetch s = (some i, t) → step s = exec i t) ∧
    (∀ t, fetch s = (none, t) → step s = .next t) ∧
    (∀ i, s.turns = [.sync] → s.run = .running → s.candValid = false → 34 ≤ s.acc.length →
      decode (.window s.acc) = .ok i → step s = exec i { s with turns := [] }) ∧
    (∀ i c later, s.turns = [] → s.inputs = .call c :: later → decode (.call c) = .ok i →
      step s = exec i { s with inputs := later, ports := {}, out := {}, freeIx := s.freeIx + 1 })

/-- R215(1), R153: when `rst = 1` nothing else of that cycle happens. -/
def Obligations.ResetWinsItsCycle : Prop :=
  ∀ (s : State) (ports : Ports) (order : List Agent) (later : List Input),
    s.turns = [] → s.inputs = .cycle ports order :: later → ports.rst = true →
    step s = .next { State.resetWith s.params with ports := ports, inputs := later, freeIx := s.freeIx + 1 }

/-- R215(2): STOP and SRC_END come before the data steps of their cycle, SRC_END's cause wins, and afterwards only POP
can still happen in that cycle. -/
def Obligations.StopComesBeforeDataSteps : Prop :=
  ∀ (s : State) (ports : Ports) (order : List Agent) (later : List Input),
    s.turns = [] → s.inputs = .cycle ports order :: later → s.run = .running → ports.rst = false →
    (ports.stop = true ∨ ports.srcEnd = true) →
    ∃ t, step s = .next t ∧ t.run = .stopped ∧ t.out.stopEvent = true ∧
      t.stopCause = (if ports.srcEnd then (if ports.srcEndCause then 4 else 5) else 6) ∧
      t.acc = s.acc ∧ t.candValid = s.candValid ∧ t.cand = s.cand ∧ t.outq = s.outq ∧ t.pos = s.pos ∧ t.nIn = s.nIn ∧
      t.inputs = later ∧
      (∀ a i, agentInstr t a = some i → i = .pop)

/-- R37: in a clock cycle without control events the offered byte is ingested exactly when `in_valid ∧ in_ready` (here
with no other agent to move before SRC, so that the cycle's first step shows it). R213: the pulses of the cycle before are
low again. -/
def Obligations.OfferedByteIsTakenWhenReady : Prop :=
  ∀ (s : State) (ports : Ports) (later : List Input),
    s.turns = [] → s.inputs = .cycle ports [] :: later → ports.rst = false → ports.stop = false →
    ports.srcEnd = false → ports.start = false → ports.outReady = false →
    ∃ t, step s = .next t ∧ t.out.evMarkerMismatch = false ∧ t.out.evCsumMismatch = false ∧
      t.out.evFrameOk = false ∧ t.out.stopEvent = false ∧
      (ports.inValid = true ∧ s.inReady = true →
        t.acc = s.acc ++ [ports.inData] ∧ t.nIn = s.nIn + 1 ∧ t.hist = s.hist ++ [.ingest ports.inData]) ∧
      (¬(ports.inValid = true ∧ s.inReady = true) → t.acc = s.acc ∧ t.nIn = s.nIn ∧ t.hist = s.hist)

/-- R38: in a clock cycle without control events and without an offered byte the front sample is popped exactly when
`out_valid ∧ out_ready` (with no other agent to move, so that the cycle's first step shows it). R213: the pulses of the
cycle before are low again. -/
def Obligations.FrontIsTakenWhenReady : Prop :=
  ∀ (s : State) (ports : Ports) (later : List Input),
    s.turns = [] → s.inputs = .cycle ports [] :: later → ports.rst = false → ports.stop = false →
    ports.srcEnd = false → ports.start = false → ports.inValid = false →
    ∃ t, step s = .next t ∧ t.out.evMarkerMismatch = false ∧ t.out.evCsumMismatch = false ∧
      t.out.evFrameOk = false ∧ t.out.stopEvent = false ∧
      (∀ smp rest, ports.outReady = true → s.outq = smp :: rest →
        t.outq = rest ∧ t.out.delivered = some smp ∧ t.hist = s.hist ++ [.pop smp]) ∧
      (ports.outReady = false ∨ s.outq = [] → t.outq = s.outq ∧ t.out.delivered = none ∧ t.hist = s.hist)

/-- R89, R150, R215(3): `start` of a stopped block is taken, its outcome chosen by `open_ok`; of the data steps of that
cycle only POP can follow, since the block was not running when the cycle began. That START comes before that POP, and not
after it, is the model's choice (log entry 12). -/
def Obligations.StartIsTakenWhenStopped : Prop :=
  ∀ (s : State) (ports : Ports) (order : List Agent) (later : List Input),
    s.turns = [] → s.inputs = .cycle ports order :: later → s.run = .stopped → ports.rst = false →
    ports.start = true →
    ∃ t, step s = .next t ∧
      t.run = (if ports.openOk then .running else .stopped) ∧ t.stopCause = (if ports.openOk then 0 else 3) ∧
      t.out.openFailure = !ports.openOk ∧ t.out.stopEvent = false ∧
      t.acc = s.acc ∧ t.candValid = s.candValid ∧ t.cand = s.cand ∧ t.outq = s.outq ∧ t.pos = s.pos ∧ t.nIn = s.nIn ∧
      t.inputs = later ∧ ∀ a ∈ t.turns, a = .sink

/-- Section 3 of 93_implementation_defined.md, R154: every step answers a next state, as long as no level-O call hands
`decode` a sequence that is not 34 bytes long (U3). -/
def Obligations.EveryStepAnswers : Prop :=
  ∀ s : State, s.callsHaveCandidates = true → ∃ t, step s = .next t ∧ t.callsHaveCandidates = true

/-! ### Invariants -/

/-- R34, R181, R61, R28, R31: the invariants hold right after reset, whatever the parameters. -/
def Obligations.ResetMeetsInvariants : Prop :=
  ∀ s : State, (s = State.reset ∨ ∃ p, s = State.resetWith p) →
    s.levelHOnly = true ∧ StateInv s ∧ StreamInv s ∧ FifoInv s ∧ CountInv s ∧ StopCauseInv s ∧ BalanceInv s

/-- R34: every step of level H keeps the state invariants. -/
def Obligations.StepKeepsStateInvariants : Prop :=
  ∀ s t : State, s.levelHOnly = true → StateInv s → step s = .next t → t.levelHOnly = true ∧ StateInv t

/-- R181: every step of level H keeps the refinement invariant. -/
def Obligations.StepKeepsStreamRefinement : Prop :=
  ∀ s t : State, s.levelHOnly = true → StreamInv s → step s = .next t → StreamInv t

/-- R61: every step of level H keeps delivery in order, without loss or duplication. -/
def Obligations.StepKeepsDeliveryOrder : Prop :=
  ∀ s t : State, s.levelHOnly = true → FifoInv s → step s = .next t → FifoInv t

/-- R28: every step of level H keeps the ghost counters equal to the numbers of their events. -/
def Obligations.StepKeepsEventCounts : Prop :=
  ∀ s t : State, s.levelHOnly = true → CountInv s → step s = .next t → CountInv t

/-- R31: every step, of either level, keeps `stop_cause` legal. -/
def Obligations.StepKeepsStopCauseLegal : Prop :=
  ∀ s t : State, StopCauseInv s → step s = .next t → StopCauseInv t

/-- R34(b), R34(e): every step, of either level, keeps the byte balance and the saturating counter. -/
def Obligations.StepKeepsBalance : Prop :=
  ∀ s t : State, BalanceInv s → step s = .next t → BalanceInv t

/-- R63, R181: what was emitted is a prefix of `Scan` of what was ingested, and all of it once nothing is left to scan
or decode. -/
def Obligations.EmittedIsPartOfScan : Prop :=
  ∀ s : State, StreamInv s →
    emitted s.hist <+: (scan (ingested s.hist)).out ∧
    (s.candValid = false → s.acc.length < 34 →
      emitted s.hist = (scan (ingested s.hist)).out ∧ s.acc = (scan (ingested s.hist)).res)

/-- R174, R182: two blocks that have ingested the same bytes, whatever their parameters and schedules, have emitted
sequences of which one continues the other, and the same one when nothing is left to scan or decode. And every
interleaving of FEED with SYNC, DEC and POP steps (R92: PUMP at level H) that ends so emits `Scan` of the pending bytes
and the bytes fed. DESIGN CHOICE (log entry 25): R174's end state is read as `drained`, no candidate and fewer than 34
bytes, as R181 has it; with a finite `Q_CAP` no SYNC or DEC step is enabled behind a full queue either. -/
def Obligations.ParametersAndSchedulesDoNotChangeOutput : Prop :=
  (∀ s t : State, StreamInv s → StreamInv t → ingested s.hist = ingested t.hist →
    (emitted s.hist <+: emitted t.hist ∨ emitted t.hist <+: emitted s.hist) ∧
    (s.drained = true → t.drained = true → emitted s.hist = emitted t.hist ∧ s.acc = t.acc)) ∧
  (∀ (bytes : List Byte) (s t : State), Interleaved (.pop :: drainSteps) bytes s t → s.candValid = false →
    t.drained = true →
    emitted t.hist = emitted s.hist ++ (scan (s.acc ++ bytes)).out ∧ t.acc = (scan (s.acc ++ bytes)).res ∧
    t.nIn = s.nIn + bytes.length ∧ t.nDisc = s.nDisc + discards (scan (s.acc ++ bytes)).trace ∧
    t.nOk = s.nOk + frameOks (scan (s.acc ++ bytes)).trace ∧ t.nBad = s.nBad + csumBads (scan (s.acc ++ bytes)).trace)

/-! ### Level S (R170-R179) -/

/-- R170: the defining equations of `ScanT`. -/
def Obligations.ScanEquation : Prop :=
  ∀ (s : List Byte) (p : Nat),
    (s.length < 34 → scanT s p = { out := [], res := s, trace := [] }) ∧
    (34 ≤ s.length → s.take 3 = [0xBD, 0xDB, 0x0A] → xor8 (s.take 33) = s.getD 33 0 →
      scanT s p =
        { out := sampleOf (s.take 34) :: (scanT (s.drop 34) (p + 34)).out
          res := (scanT (s.drop 34) (p + 34)).res
          trace := .frameOk p (sampleOf (s.take 34)) :: (scanT (s.drop 34) (p + 34)).trace }) ∧
    (34 ≤ s.length → s.take 3 = [0xBD, 0xDB, 0x0A] → xor8 (s.take 33) ≠ s.getD 33 0 →
      scanT s p =
        { out := (scanT (s.drop 34) (p + 34)).out
          res := (scanT (s.drop 34) (p + 34)).res
          trace := .csumBad p :: (scanT (s.drop 34) (p + 34)).trace }) ∧
    (34 ≤ s.length → s.take 3 ≠ [0xBD, 0xDB, 0x0A] →
      scanT s p =
        { out := (scanT (s.drop 1) (p + 1)).out
          res := (scanT (s.drop 1) (p + 1)).res
          trace := .discard p :: (scanT (s.drop 1) (p + 1)).trace })

/-- R171: the basic facts of `Scan`. -/
def Obligations.ScanBasicFacts : Prop :=
  ∀ s : List Byte,
    (scan s).res.length ≤ 33 ∧ (scan s).res <:+ s ∧
    (s.length < 34 → (scan s).out = [] ∧ (scan s).res = s) ∧
    s.length - (scan s).res.length =
      discards (scan s).trace + 34 * (frameOks (scan s).trace + csumBads (scan s).trace) ∧
    (scan s).out.length = frameOks (scan s).trace ∧ (scan s).out.length ≤ s.length / 34

/-- R172: incrementality. -/
def Obligations.ScanIsIncremental : Prop :=
  ∀ a b : List Byte,
    (scan (a ++ b)).out = (scan a).out ++ (scan ((scan a).res ++ b)).out ∧
    (scan (a ++ b)).res = (scan ((scan a).res ++ b)).res

/-- R179: frames laid back to back are each taken whole; those with a good checksum are emitted in order, those with a
bad one dropped, and the scan goes on behind the last. -/
def Obligations.LockIsKeptOverFrames : Prop :=
  ∀ (frames : List FrameFields) (rest : List Byte),
    (scan (frames.flatMap frameBytes ++ rest)).out =
      (frames.filter fun f => xor8 (frameBody f.payload f.reserved) == f.checksum).map (·.payload) ++ (scan rest).out ∧
    (scan (frames.flatMap frameBytes ++ rest)).res = (scan rest).res ∧
    discards (scan (frames.flatMap frameBytes ++ rest)).trace = discards (scan rest).trace

/-- R178: a valid frame behind other bytes is emitted exactly when the scan visits its start, and it is lost exactly
when a marker visited fewer than 34 bytes before it swallows its head. -/
def Obligations.GenuineFrameIsFoundIffVisited : Prop :=
  ∀ (garbage rest : List Byte) (smp : Sample) (reserved : BitVec 48),
    let f := frameBytes (validFrame smp reserved)
    let s := garbage ++ f ++ rest
    (ScanEvent.frameOk garbage.length smp ∈ (scan s).trace ↔ Visits s garbage.length) ∧
    (¬Visits s garbage.length ↔
      ∃ p, Visits s p ∧ p < garbage.length ∧ garbage.length < p + 34 ∧ marked (s.drop p) = true) ∧
    ((∀ p, p < garbage.length → marked (s.drop p) = false) →
      (scan s).out = smp :: (scan rest).out ∧ (scan s).res = (scan rest).res)

/-- R183, R92, R181, R117, R142: DRAIN of a running block with an unbounded queue ends with nothing left to scan or decode, having
emitted the pending candidate's sample and `Scan` of the accumulator. -/
def Obligations.DrainReachesScan : Prop :=
  ∀ s : State, s.run = .running → s.params.qCap = none →
    s.drain.acc = (scan s.acc).res ∧ s.drain.candValid = false ∧
    s.drain.outq = s.outq ++ s.pending ++ (scan s.acc).out ∧ s.drain.run = .running ∧ s.drain.nIn = s.nIn ∧
    firstMove s.drain [.dec, .sync] = none
end

