-- ==== Sys2Proof/Laws/State.lean ====
section
/-! SUPPORT. Each field of the state after each named operation of Machine/Ops.lean, so that no later proof unfolds a
record update. -/

namespace Sys2Proof.Machine

/-! ### The constants of R6 as numerals -/

@[simp] theorem frameLen_eq : frameLen = 34 := rfl
@[simp] theorem markerLen_eq : markerLen = 3 := rfl
@[simp] theorem csumOff_eq : csumOff = 33 := rfl
@[simp] theorem rsvdOff_eq : rsvdOff = 27 := rfl
@[simp] theorem discardLen_eq : discardLen = 1 := rfl

/-! ### record -/

@[simp] theorem State.record_acc (s : State) (e : Event) : (s.record e).acc = s.acc := rfl
@[simp] theorem State.record_candValid (s : State) (e : Event) : (s.record e).candValid = s.candValid := rfl
@[simp] theorem State.record_cand (s : State) (e : Event) : (s.record e).cand = s.cand := rfl
@[simp] theorem State.record_outq (s : State) (e : Event) : (s.record e).outq = s.outq := rfl
@[simp] theorem State.record_csumErrCount (s : State) (e : Event) : (s.record e).csumErrCount = s.csumErrCount := rfl
@[simp] theorem State.record_run (s : State) (e : Event) : (s.record e).run = s.run := rfl
@[simp] theorem State.record_stopCause (s : State) (e : Event) : (s.record e).stopCause = s.stopCause := rfl
@[simp] theorem State.record_pos (s : State) (e : Event) : (s.record e).pos = s.pos := rfl
@[simp] theorem State.record_nIn (s : State) (e : Event) : (s.record e).nIn = s.nIn := rfl
@[simp] theorem State.record_nDisc (s : State) (e : Event) : (s.record e).nDisc = s.nDisc := rfl
@[simp] theorem State.record_nOk (s : State) (e : Event) : (s.record e).nOk = s.nOk := rfl
@[simp] theorem State.record_nBad (s : State) (e : Event) : (s.record e).nBad = s.nBad := rfl
@[simp] theorem State.record_hist (s : State) (e : Event) : (s.record e).hist = s.hist ++ [e] := rfl
@[simp] theorem State.record_ports (s : State) (e : Event) : (s.record e).ports = s.ports := rfl
@[simp] theorem State.record_out (s : State) (e : Event) : (s.record e).out = s.out := rfl
@[simp] theorem State.record_params (s : State) (e : Event) : (s.record e).params = s.params := rfl
@[simp] theorem State.record_reply (s : State) (e : Event) : (s.record e).reply = s.reply := rfl
@[simp] theorem State.record_taken (s : State) (e : Event) : (s.record e).taken = s.taken := rfl
@[simp] theorem State.record_turns (s : State) (e : Event) : (s.record e).turns = s.turns := rfl
@[simp] theorem State.record_inputs (s : State) (e : Event) : (s.record e).inputs = s.inputs := rfl
@[simp] theorem State.record_freeIx (s : State) (e : Event) : (s.record e).freeIx = s.freeIx := rfl

/-! ### countCsumError -/

@[simp] theorem State.countCsumError_acc (s : State) : (s.countCsumError).acc = s.acc := rfl
@[simp] theorem State.countCsumError_candValid (s : State) : (s.countCsumError).candValid = s.candValid := rfl
@[simp] theorem State.countCsumError_cand (s : State) : (s.countCsumError).cand = s.cand := rfl
@[simp] theorem State.countCsumError_outq (s : State) : (s.countCsumError).outq = s.outq := rfl
@[simp] theorem State.countCsumError_csumErrCount (s : State) : (s.countCsumError).csumErrCount = min (s.csumErrCount + 1) (counterMax s.params.diagW) := rfl
@[simp] theorem State.countCsumError_run (s : State) : (s.countCsumError).run = s.run := rfl
@[simp] theorem State.countCsumError_stopCause (s : State) : (s.countCsumError).stopCause = s.stopCause := rfl
@[simp] theorem State.countCsumError_pos (s : State) : (s.countCsumError).pos = s.pos := rfl
@[simp] theorem State.countCsumError_nIn (s : State) : (s.countCsumError).nIn = s.nIn := rfl
@[simp] theorem State.countCsumError_nDisc (s : State) : (s.countCsumError).nDisc = s.nDisc := rfl
@[simp] theorem State.countCsumError_nOk (s : State) : (s.countCsumError).nOk = s.nOk := rfl
@[simp] theorem State.countCsumError_nBad (s : State) : (s.countCsumError).nBad = s.nBad + 1 := rfl
@[simp] theorem State.countCsumError_hist (s : State) : (s.countCsumError).hist = s.hist := rfl
@[simp] theorem State.countCsumError_ports (s : State) : (s.countCsumError).ports = s.ports := rfl
@[simp] theorem State.countCsumError_out (s : State) : (s.countCsumError).out = s.out := rfl
@[simp] theorem State.countCsumError_params (s : State) : (s.countCsumError).params = s.params := rfl
@[simp] theorem State.countCsumError_reply (s : State) : (s.countCsumError).reply = s.reply := rfl
@[simp] theorem State.countCsumError_taken (s : State) : (s.countCsumError).taken = s.taken := rfl
@[simp] theorem State.countCsumError_turns (s : State) : (s.countCsumError).turns = s.turns := rfl
@[simp] theorem State.countCsumError_inputs (s : State) : (s.countCsumError).inputs = s.inputs := rfl
@[simp] theorem State.countCsumError_freeIx (s : State) : (s.countCsumError).freeIx = s.freeIx := rfl

/-! ### halt -/

@[simp] theorem State.halt_acc (s : State) (c : Condition) (e : Event) : (s.halt c e).acc = s.acc := rfl
@[simp] theorem State.halt_candValid (s : State) (c : Condition) (e : Event) : (s.halt c e).candValid = s.candValid := rfl
@[simp] theorem State.halt_cand (s : State) (c : Condition) (e : Event) : (s.halt c e).cand = s.cand := rfl
@[simp] theorem State.halt_outq (s : State) (c : Condition) (e : Event) : (s.halt c e).outq = s.outq := rfl
@[simp] theorem State.halt_csumErrCount (s : State) (c : Condition) (e : Event) : (s.halt c e).csumErrCount = s.csumErrCount := rfl
@[simp] theorem State.halt_run (s : State) (c : Condition) (e : Event) : (s.halt c e).run = .stopped := rfl
@[simp] theorem State.halt_stopCause (s : State) (c : Condition) (e : Event) : (s.halt c e).stopCause = c.code := rfl
@[simp] theorem State.halt_pos (s : State) (c : Condition) (e : Event) : (s.halt c e).pos = s.pos := rfl
@[simp] theorem State.halt_nIn (s : State) (c : Condition) (e : Event) : (s.halt c e).nIn = s.nIn := rfl
@[simp] theorem State.halt_nDisc (s : State) (c : Condition) (e : Event) : (s.halt c e).nDisc = s.nDisc := rfl
@[simp] theorem State.halt_nOk (s : State) (c : Condition) (e : Event) : (s.halt c e).nOk = s.nOk := rfl
@[simp] theorem State.halt_nBad (s : State) (c : Condition) (e : Event) : (s.halt c e).nBad = s.nBad := rfl
@[simp] theorem State.halt_hist (s : State) (c : Condition) (e : Event) : (s.halt c e).hist = s.hist ++ [e] := rfl
@[simp] theorem State.halt_ports (s : State) (c : Condition) (e : Event) : (s.halt c e).ports = s.ports := rfl
@[simp] theorem State.halt_out (s : State) (c : Condition) (e : Event) : (s.halt c e).out = { s.out with stopEvent := true } := rfl
@[simp] theorem State.halt_params (s : State) (c : Condition) (e : Event) : (s.halt c e).params = s.params := rfl
@[simp] theorem State.halt_reply (s : State) (c : Condition) (e : Event) : (s.halt c e).reply = s.reply := rfl
@[simp] theorem State.halt_taken (s : State) (c : Condition) (e : Event) : (s.halt c e).taken = s.taken := rfl
@[simp] theorem State.halt_turns (s : State) (c : Condition) (e : Event) : (s.halt c e).turns = s.turns := rfl
@[simp] theorem State.halt_inputs (s : State) (c : Condition) (e : Event) : (s.halt c e).inputs = s.inputs := rfl
@[simp] theorem State.halt_freeIx (s : State) (c : Condition) (e : Event) : (s.halt c e).freeIx = s.freeIx := rfl

/-! ### append -/

@[simp] theorem State.append_acc (s : State) (b : Byte) : (s.append b).acc = s.acc ++ [b] := rfl
@[simp] theorem State.append_candValid (s : State) (b : Byte) : (s.append b).candValid = s.candValid := rfl
@[simp] theorem State.append_cand (s : State) (b : Byte) : (s.append b).cand = s.cand := rfl
@[simp] theorem State.append_outq (s : State) (b : Byte) : (s.append b).outq = s.outq := rfl
@[simp] theorem State.append_csumErrCount (s : State) (b : Byte) : (s.append b).csumErrCount = s.csumErrCount := rfl
@[simp] theorem State.append_run (s : State) (b : Byte) : (s.append b).run = s.run := rfl
@[simp] theorem State.append_stopCause (s : State) (b : Byte) : (s.append b).stopCause = s.stopCause := rfl
@[simp] theorem State.append_pos (s : State) (b : Byte) : (s.append b).pos = s.pos := rfl
@[simp] theorem State.append_nIn (s : State) (b : Byte) : (s.append b).nIn = s.nIn + 1 := rfl
@[simp] theorem State.append_nDisc (s : State) (b : Byte) : (s.append b).nDisc = s.nDisc := rfl
@[simp] theorem State.append_nOk (s : State) (b : Byte) : (s.append b).nOk = s.nOk := rfl
@[simp] theorem State.append_nBad (s : State) (b : Byte) : (s.append b).nBad = s.nBad := rfl
@[simp] theorem State.append_hist (s : State) (b : Byte) : (s.append b).hist = s.hist := rfl
@[simp] theorem State.append_ports (s : State) (b : Byte) : (s.append b).ports = s.ports := rfl
@[simp] theorem State.append_out (s : State) (b : Byte) : (s.append b).out = s.out := rfl
@[simp] theorem State.append_params (s : State) (b : Byte) : (s.append b).params = s.params := rfl
@[simp] theorem State.append_reply (s : State) (b : Byte) : (s.append b).reply = s.reply := rfl
@[simp] theorem State.append_taken (s : State) (b : Byte) : (s.append b).taken = s.taken := rfl
@[simp] theorem State.append_turns (s : State) (b : Byte) : (s.append b).turns = s.turns := rfl
@[simp] theorem State.append_inputs (s : State) (b : Byte) : (s.append b).inputs = s.inputs := rfl
@[simp] theorem State.append_freeIx (s : State) (b : Byte) : (s.append b).freeIx = s.freeIx := rfl

/-! ### remove -/

@[simp] theorem State.remove_acc (s : State) (n : Nat) : (s.remove n).acc = s.acc.drop n := rfl
@[simp] theorem State.remove_candValid (s : State) (n : Nat) : (s.remove n).candValid = s.candValid := rfl
@[simp] theorem State.remove_cand (s : State) (n : Nat) : (s.remove n).cand = s.cand := rfl
@[simp] theorem State.remove_outq (s : State) (n : Nat) : (s.remove n).outq = s.outq := rfl
@[simp] theorem State.remove_csumErrCount (s : State) (n : Nat) : (s.remove n).csumErrCount = s.csumErrCount := rfl
@[simp] theorem State.remove_run (s : State) (n : Nat) : (s.remove n).run = s.run := rfl
@[simp] theorem State.remove_stopCause (s : State) (n : Nat) : (s.remove n).stopCause = s.stopCause := rfl
@[simp] theorem State.remove_pos (s : State) (n : Nat) : (s.remove n).pos = s.pos + n := rfl
@[simp] theorem State.remove_nIn (s : State) (n : Nat) : (s.remove n).nIn = s.nIn := rfl
@[simp] theorem State.remove_nDisc (s : State) (n : Nat) : (s.remove n).nDisc = s.nDisc := rfl
@[simp] theorem State.remove_nOk (s : State) (n : Nat) : (s.remove n).nOk = s.nOk := rfl
@[simp] theorem State.remove_nBad (s : State) (n : Nat) : (s.remove n).nBad = s.nBad := rfl
@[simp] theorem State.remove_hist (s : State) (n : Nat) : (s.remove n).hist = s.hist := rfl
@[simp] theorem State.remove_ports (s : State) (n : Nat) : (s.remove n).ports = s.ports := rfl
@[simp] theorem State.remove_out (s : State) (n : Nat) : (s.remove n).out = s.out := rfl
@[simp] theorem State.remove_params (s : State) (n : Nat) : (s.remove n).params = s.params := rfl
@[simp] theorem State.remove_reply (s : State) (n : Nat) : (s.remove n).reply = s.reply := rfl
@[simp] theorem State.remove_taken (s : State) (n : Nat) : (s.remove n).taken = s.taken := rfl
@[simp] theorem State.remove_turns (s : State) (n : Nat) : (s.remove n).turns = s.turns := rfl
@[simp] theorem State.remove_inputs (s : State) (n : Nat) : (s.remove n).inputs = s.inputs := rfl
@[simp] theorem State.remove_freeIx (s : State) (n : Nat) : (s.remove n).freeIx = s.freeIx := rfl

/-! ### emit -/

@[simp] theorem State.emit_acc (s : State) (smp : Sample) : (s.emit smp).acc = s.acc := rfl
@[simp] theorem State.emit_candValid (s : State) (smp : Sample) : (s.emit smp).candValid = s.candValid := rfl
@[simp] theorem State.emit_cand (s : State) (smp : Sample) : (s.emit smp).cand = s.cand := rfl
@[simp] theorem State.emit_outq (s : State) (smp : Sample) : (s.emit smp).outq = s.outq ++ [smp] := rfl
@[simp] theorem State.emit_csumErrCount (s : State) (smp : Sample) : (s.emit smp).csumErrCount = s.csumErrCount := rfl
@[simp] theorem State.emit_run (s : State) (smp : Sample) : (s.emit smp).run = s.run := rfl
@[simp] theorem State.emit_stopCause (s : State) (smp : Sample) : (s.emit smp).stopCause = s.stopCause := rfl
@[simp] theorem State.emit_pos (s : State) (smp : Sample) : (s.emit smp).pos = s.pos := rfl
@[simp] theorem State.emit_nIn (s : State) (smp : Sample) : (s.emit smp).nIn = s.nIn := rfl
@[simp] theorem State.emit_nDisc (s : State) (smp : Sample) : (s.emit smp).nDisc = s.nDisc := rfl
@[simp] theorem State.emit_nOk (s : State) (smp : Sample) : (s.emit smp).nOk = s.nOk := rfl
@[simp] theorem State.emit_nBad (s : State) (smp : Sample) : (s.emit smp).nBad = s.nBad := rfl
@[simp] theorem State.emit_hist (s : State) (smp : Sample) : (s.emit smp).hist = s.hist := rfl
@[simp] theorem State.emit_ports (s : State) (smp : Sample) : (s.emit smp).ports = s.ports := rfl
@[simp] theorem State.emit_out (s : State) (smp : Sample) : (s.emit smp).out = s.out := rfl
@[simp] theorem State.emit_params (s : State) (smp : Sample) : (s.emit smp).params = s.params := rfl
@[simp] theorem State.emit_reply (s : State) (smp : Sample) : (s.emit smp).reply = s.reply := rfl
@[simp] theorem State.emit_taken (s : State) (smp : Sample) : (s.emit smp).taken = s.taken := rfl
@[simp] theorem State.emit_turns (s : State) (smp : Sample) : (s.emit smp).turns = s.turns := rfl
@[simp] theorem State.emit_inputs (s : State) (smp : Sample) : (s.emit smp).inputs = s.inputs := rfl
@[simp] theorem State.emit_freeIx (s : State) (smp : Sample) : (s.emit smp).freeIx = s.freeIx := rfl

/-! ### discardHead -/

@[simp] theorem State.discardHead_acc (s : State) : (s.discardHead).acc = s.acc.drop 1 := rfl
@[simp] theorem State.discardHead_candValid (s : State) : (s.discardHead).candValid = s.candValid := rfl
@[simp] theorem State.discardHead_cand (s : State) : (s.discardHead).cand = s.cand := rfl
@[simp] theorem State.discardHead_outq (s : State) : (s.discardHead).outq = s.outq := rfl
@[simp] theorem State.discardHead_csumErrCount (s : State) : (s.discardHead).csumErrCount = s.csumErrCount := rfl
@[simp] theorem State.discardHead_run (s : State) : (s.discardHead).run = s.run := rfl
@[simp] theorem State.discardHead_stopCause (s : State) : (s.discardHead).stopCause = s.stopCause := rfl
@[simp] theorem State.discardHead_pos (s : State) : (s.discardHead).pos = s.pos + 1 := rfl
@[simp] theorem State.discardHead_nIn (s : State) : (s.discardHead).nIn = s.nIn := rfl
@[simp] theorem State.discardHead_nDisc (s : State) : (s.discardHead).nDisc = s.nDisc + 1 := rfl
@[simp] theorem State.discardHead_nOk (s : State) : (s.discardHead).nOk = s.nOk := rfl
@[simp] theorem State.discardHead_nBad (s : State) : (s.discardHead).nBad = s.nBad := rfl
@[simp] theorem State.discardHead_hist (s : State) : (s.discardHead).hist = s.hist ++ [.discard s.pos] := rfl
@[simp] theorem State.discardHead_ports (s : State) : (s.discardHead).ports = s.ports := rfl
@[simp] theorem State.discardHead_out (s : State) : (s.discardHead).out = s.out := rfl
@[simp] theorem State.discardHead_params (s : State) : (s.discardHead).params = s.params := rfl
@[simp] theorem State.discardHead_reply (s : State) : (s.discardHead).reply = s.reply := rfl
@[simp] theorem State.discardHead_taken (s : State) : (s.discardHead).taken = s.taken := rfl
@[simp] theorem State.discardHead_turns (s : State) : (s.discardHead).turns = s.turns := rfl
@[simp] theorem State.discardHead_inputs (s : State) : (s.discardHead).inputs = s.inputs := rfl
@[simp] theorem State.discardHead_freeIx (s : State) : (s.discardHead).freeIx = s.freeIx := rfl

/-! ### ingestAll -/

@[simp] theorem State.ingestAll_acc (s : State) (bytes : List Byte) : (s.ingestAll bytes).acc = s.acc ++ bytes := rfl
@[simp] theorem State.ingestAll_candValid (s : State) (bytes : List Byte) : (s.ingestAll bytes).candValid = s.candValid := rfl
@[simp] theorem State.ingestAll_cand (s : State) (bytes : List Byte) : (s.ingestAll bytes).cand = s.cand := rfl
@[simp] theorem State.ingestAll_outq (s : State) (bytes : List Byte) : (s.ingestAll bytes).outq = s.outq := rfl
@[simp] theorem State.ingestAll_csumErrCount (s : State) (bytes : List Byte) : (s.ingestAll bytes).csumErrCount = s.csumErrCount := rfl
@[simp] theorem State.ingestAll_run (s : State) (bytes : List Byte) : (s.ingestAll bytes).run = s.run := rfl
@[simp] theorem State.ingestAll_stopCause (s : State) (bytes : List Byte) : (s.ingestAll bytes).stopCause = s.stopCause := rfl
@[simp] theorem State.ingestAll_pos (s : State) (bytes : List Byte) : (s.ingestAll bytes).pos = s.pos := rfl
@[simp] theorem State.ingestAll_nIn (s : State) (bytes : List Byte) : (s.ingestAll bytes).nIn = s.nIn + bytes.length := rfl
@[simp] theorem State.ingestAll_nDisc (s : State) (bytes : List Byte) : (s.ingestAll bytes).nDisc = s.nDisc := rfl
@[simp] theorem State.ingestAll_nOk (s : State) (bytes : List Byte) : (s.ingestAll bytes).nOk = s.nOk := rfl
@[simp] theorem State.ingestAll_nBad (s : State) (bytes : List Byte) : (s.ingestAll bytes).nBad = s.nBad := rfl
@[simp] theorem State.ingestAll_hist (s : State) (bytes : List Byte) : (s.ingestAll bytes).hist = s.hist := rfl
@[simp] theorem State.ingestAll_ports (s : State) (bytes : List Byte) : (s.ingestAll bytes).ports = s.ports := rfl
@[simp] theorem State.ingestAll_out (s : State) (bytes : List Byte) : (s.ingestAll bytes).out = s.out := rfl
@[simp] theorem State.ingestAll_params (s : State) (bytes : List Byte) : (s.ingestAll bytes).params = s.params := rfl
@[simp] theorem State.ingestAll_reply (s : State) (bytes : List Byte) : (s.ingestAll bytes).reply = s.reply := rfl
@[simp] theorem State.ingestAll_taken (s : State) (bytes : List Byte) : (s.ingestAll bytes).taken = s.taken := rfl
@[simp] theorem State.ingestAll_turns (s : State) (bytes : List Byte) : (s.ingestAll bytes).turns = s.turns := rfl
@[simp] theorem State.ingestAll_inputs (s : State) (bytes : List Byte) : (s.ingestAll bytes).inputs = s.inputs := rfl
@[simp] theorem State.ingestAll_freeIx (s : State) (bytes : List Byte) : (s.ingestAll bytes).freeIx = s.freeIx := rfl

/-! ### takeFrame -/

@[simp] theorem State.takeFrame_acc (s : State) : (s.takeFrame).acc = s.acc.drop 34 := rfl
@[simp] theorem State.takeFrame_candValid (s : State) : (s.takeFrame).candValid = s.candValid := rfl
@[simp] theorem State.takeFrame_cand (s : State) : (s.takeFrame).cand = s.cand := rfl
@[simp] theorem State.takeFrame_outq (s : State) : (s.takeFrame).outq = s.outq := rfl
@[simp] theorem State.takeFrame_csumErrCount (s : State) : (s.takeFrame).csumErrCount = s.csumErrCount := rfl
@[simp] theorem State.takeFrame_run (s : State) : (s.takeFrame).run = s.run := rfl
@[simp] theorem State.takeFrame_stopCause (s : State) : (s.takeFrame).stopCause = s.stopCause := rfl
@[simp] theorem State.takeFrame_pos (s : State) : (s.takeFrame).pos = s.pos + 34 := rfl
@[simp] theorem State.takeFrame_nIn (s : State) : (s.takeFrame).nIn = s.nIn := rfl
@[simp] theorem State.takeFrame_nDisc (s : State) : (s.takeFrame).nDisc = s.nDisc := rfl
@[simp] theorem State.takeFrame_nOk (s : State) : (s.takeFrame).nOk = s.nOk := rfl
@[simp] theorem State.takeFrame_nBad (s : State) : (s.takeFrame).nBad = s.nBad := rfl
@[simp] theorem State.takeFrame_hist (s : State) : (s.takeFrame).hist = s.hist := rfl
@[simp] theorem State.takeFrame_ports (s : State) : (s.takeFrame).ports = s.ports := rfl
@[simp] theorem State.takeFrame_out (s : State) : (s.takeFrame).out = s.out := rfl
@[simp] theorem State.takeFrame_params (s : State) : (s.takeFrame).params = s.params := rfl
@[simp] theorem State.takeFrame_reply (s : State) : (s.takeFrame).reply = .frame s.pos (windowOf s.acc) := rfl
@[simp] theorem State.takeFrame_taken (s : State) : (s.takeFrame).taken = (s.pos, windowOf s.acc) :: s.taken := rfl
@[simp] theorem State.takeFrame_turns (s : State) : (s.takeFrame).turns = s.turns := rfl
@[simp] theorem State.takeFrame_inputs (s : State) : (s.takeFrame).inputs = s.inputs := rfl
@[simp] theorem State.takeFrame_freeIx (s : State) : (s.takeFrame).freeIx = s.freeIx := rfl

end Sys2Proof.Machine
end

