-- ==== Sys2Proof/Laws/Operands.lean ====
section
/-! SUPPORT. What the window copied into the candidate register is, and what the tests on it see. -/

namespace Sys2Proof.Machine

theorem windowOf_toList (bytes : List Byte) (h : frameLen ≤ bytes.length) :
    (windowOf bytes).toList = bytes.take frameLen := by
  apply List.ext_getElem
  · simp [h]
  · intro i h₁ h₂
    have hi : i < bytes.length := by simp at h₂; omega
    simp [windowOf, hi]

theorem toList_length (f : CandidateFrame) : f.toList.length = frameLen := by simp

theorem windowOf_toList_self (f : CandidateFrame) : windowOf f.toList = f := by
  apply Vector.toList_inj.mp
  rw [windowOf_toList _ (by simp), List.take_of_length_le (by simp)]

theorem marked_take (bytes : List Byte) (n : Nat) (h : markerLen ≤ n) : marked (bytes.take n) = marked bytes := by
  simp [marked, List.take_take, Nat.min_eq_left h]

theorem marked_append (a b : List Byte) (h : markerLen ≤ a.length) : marked (a ++ b) = marked a := by
  simp [marked, List.take_append_of_le_length h]

theorem hasRoom_iff (cap : Option Nat) (n : Nat) : hasRoom cap n = true ↔ ∀ c, cap = some c → n < c := by
  cases cap <;> simp [hasRoom]

theorem xor8_snoc (s : List Byte) (b : Byte) : xor8 (s ++ [b]) = xor8 s ^^^ b := by simp [xor8]

/-- Every operation on the accumulator keeps its form (R22, R57): it starts empty, a byte is appended only when there is
room, and a removal shortens it. -/
theorem resetWith_memory_wf (p : Params) : Memory.wf (State.resetWith p) := by simp [Memory.wf, State.resetWith]

theorem append_memory_wf (s : State) (b : Byte) (h : s.inReady = true) : Memory.wf (s.append b) := by
  intro c hc
  have := (hasRoom_iff _ _).mp (Bool.and_eq_true _ _ ▸ h).2 c hc
  simpa using this

theorem remove_memory_wf (s : State) (n : Nat) (h : Memory.wf s) : Memory.wf (s.remove n) := by
  intro c hc
  have := h c hc
  simp
  omega

/-- A level-O `ingest` keeps the form where the accumulator is unbounded, which is all level O speaks of (R110). -/
theorem ingestAll_memory_wf (s : State) (bytes : List Byte) (h : s.params.accCap = none) :
    Memory.wf (s.ingestAll bytes) := by
  intro c hc
  simp [h] at hc

/-- `MemRead` answers exactly the bytes the accumulator holds (R10). -/
theorem memRead_eq_some (s : State) (i n : Nat) (bytes : List Byte) :
    s.memRead i n = some bytes ↔ i + n ≤ s.acc.length ∧ (s.acc.drop i).take n = bytes := by
  simp only [State.memRead]
  split <;> simp_all

end Sys2Proof.Machine
end

