-- ==== Sys2Proof/Laws/LevelO.lean ====
section
/-! SUPPORT. What the level-O `decode` can do, and which candidate it is given. -/

namespace Sys2Proof.Machine

/-- R130: a candidate with a good checksum. -/
theorem decodeAt_of_valid (s : State) (p : Nat) (bytes : List Byte) (h : checksumOk bytes = true) :
    s.decodeAt p bytes =
      { s with taken := s.taken.erase (p, windowOf bytes), nOk := s.nOk + 1, reply := .sample (sampleOf bytes) } := by
  simp [State.decodeAt, h]

/-- R202: a candidate with a bad checksum. -/
theorem decodeAt_of_bad (s : State) (p : Nat) (bytes : List Byte) (h : checksumOk bytes = false) :
    s.decodeAt p bytes =
      { s with
        taken := s.taken.erase (p, windowOf bytes)
        nBad := s.nBad + 1
        csumErrCount := min (s.csumErrCount + 1) (counterMax s.params.diagW)
        hist := s.hist ++ [.csumBad p]
        reply := .checksumMismatch } := by
  simp [State.decodeAt, h, State.countCsumError, State.record]

/-- R202: the offset recorded for an outstanding candidate is that of an outstanding candidate with its bytes. -/
theorem offsetOf_mem (s : State) (bytes : List Byte) (q : Nat) (hl : bytes.length = frameLen)
    (h : (q, windowOf bytes) ∈ s.taken) : (s.offsetOf bytes, windowOf bytes) ∈ s.taken := by
  have hw : (windowOf bytes).toList = bytes := by
    rw [windowOf_toList _ hl.ge, List.take_of_length_le hl.le]
  have key : ∀ p ∈ (s.taken.filter fun c => c.2.toList == bytes).map (·.1), (p, windowOf bytes) ∈ s.taken := by
    intro p hp
    simp only [List.mem_map, List.mem_filter, beq_iff_eq] at hp
    obtain ⟨⟨p', f⟩, ⟨hm, hf⟩, rfl⟩ := hp
    rwa [← hf, windowOf_toList_self]
  have hq : q ∈ (s.taken.filter fun c => c.2.toList == bytes).map (·.1) := by
    simp only [List.mem_map, List.mem_filter, beq_iff_eq]
    exact ⟨(q, windowOf bytes), ⟨h, hw⟩, rfl⟩
  unfold State.offsetOf
  split
  · rename_i e
    simp [e] at hq
  · rename_i p e
    exact key p (by simp [e])
  · rename_i p more _ e
    refine key _ ?_
    rw [e]
    simp only [List.getD_eq_getElem?_getD]
    have : Config.freeChoice s.freeIx % (more.length + 1) < (p :: more).length := Nat.mod_lt _ (by simp)
    rw [List.getElem?_eq_getElem this]
    exact List.getElem_mem this

/-- R160: extraction and decoding of one candidate leave the outstanding ones as they were. -/
theorem takeFrame_decodeAt_taken (s : State) :
    (s.takeFrame.decodeAt s.pos (windowOf s.acc).toList).taken = s.taken := by
  cases hc : checksumOk (windowOf s.acc).toList <;>
    simp [decodeAt_of_valid, decodeAt_of_bad, hc, windowOf_toList_self]

end Sys2Proof.Machine
end

