-- ==== Sys2Proof/Laws/PerInstr.lean ====
section
/-! SUPPORT. One statement per constructor of `Instr`, about the instruction as syntax: the request that selects it is
made at the level the opcode table gives the instruction (R5, R89). -/

namespace Sys2Proof.Laws.RequestLevel

/-- R89: the level of the encoded request is the instruction's own. -/
def Statement (i : Instr) : Prop := (encode i).level = i.level

theorem frame (f : FrameFields) : Statement (.frame f) := rfl
theorem ingest (bytes : List Byte) : Statement (.ingest bytes) := rfl
theorem tryExtractFrame : Statement .tryExtractFrame := rfl
theorem decode (bytes : List Byte) : Statement (.decode bytes) := rfl
theorem portIngest (b : Byte) : Statement (.portIngest b) := rfl
theorem scanExtract : Statement .scanExtract := rfl
theorem scanDiscard : Statement .scanDiscard := rfl
theorem scanWait : Statement .scanWait := rfl
theorem decOk : Statement .decOk := rfl
theorem decBad : Statement .decBad := rfl
theorem pop : Statement .pop := rfl
theorem startOk : Statement .startOk := rfl
theorem startFail : Statement .startFail := rfl
theorem stop : Statement .stop := rfl
theorem srcEndEos : Statement .srcEndEos := rfl
theorem srcEndReadFail : Statement .srcEndReadFail := rfl
theorem reset : Statement .reset := rfl

end Sys2Proof.Laws.RequestLevel
end

