-- ==== Sys2Proof/Laws/Step.lean ====
section
/-! SUPPORT. What a fetch changes, which operations it can give, and the inversion of a step. -/

namespace Sys2Proof.Machine

/-- The same block in another clock cycle: only the port signals, what the block drives in a cycle, the turns, the
script and the counter of free values may differ. -/
def SameBlock (s t : State) : Prop :=
  t = { s with ports := t.ports, out := t.out, turns := t.turns, inputs := t.inputs, freeIx := t.freeIx }

theorem takeTurn_same (s : State) (agents : List Agent) : SameBlock s (takeTurn s agents).2 := by
  unfold takeTurn SameBlock
  split <;> rfl

theorem beginCycle_same (s : State) (ports : Ports) (order : List Agent) : SameBlock s (beginCycle s ports order).2 := by
  unfold beginCycle
  dsimp only
  split
  · rfl
  · unfold takeTurn
    split <;> rfl

theorem fetch_same (s : State) : SameBlock s (fetch s).2 := by
  unfold fetch
  split
  · rfl
  · split
    · exact (beginCycle_same _ _ _).trans rfl
    · rfl
    · exact (beginCycle_same _ _ _).trans rfl

/-- A step executes what was fetched, or holds. -/
theorem step_cases (s t : State) (h : step s = .next t) :
    (∃ i, (fetch s).1 = some i ∧ exec i (fetch s).2 = .next t) ∨ ((fetch s).1 = none ∧ t = (fetch s).2) := by
  unfold step at h
  split at h
  · rename_i i u e
    exact .inl ⟨i, by simp [e], by simpa [e] using h⟩
  · rename_i u e
    injection h with h
    exact .inr ⟨by simp [e], by simp [e, h]⟩

theorem firstMove_some (s : State) (agents : List Agent) (i : Instr) (rest : List Agent)
    (h : firstMove s agents = some (i, rest)) : ∃ a ∈ agents, agentInstr s a = some i := by
  induction agents with
  | nil => simp [firstMove] at h
  | cons a as ih =>
    simp only [firstMove] at h
    split at h
    · rename_i j e
      simp only [Option.some.injEq, Prod.mk.injEq] at h
      exact ⟨a, by simp, h.1 ▸ e⟩
    · obtain ⟨b, hb, e⟩ := ih h
      exact ⟨b, by simp [hb], e⟩

end Sys2Proof.Machine
end

