-- ==== Sys2Proof/Laws/Stream.lean ====
section
/-! SUPPORT. The step bound of `scanFuel` does not matter once it covers the sequence, and what one more event adds to the
readings of the history. -/

namespace Sys2Proof.Machine

theorem scanFuel_of_le (fuel : Nat) (s : List Byte) (p : Nat) (h : s.length ≤ fuel) :
    scanFuel fuel s p = scanT s p := by
  have key : ∀ (n : Nat) (s : List Byte) (p f g : Nat), s.length ≤ n → s.length ≤ f → s.length ≤ g →
      scanFuel f s p = scanFuel g s p := by
    intro n
    induction n with
    | zero =>
      intro s p f g hn _ _
      have : s.length < 34 := by omega
      cases f <;> cases g <;> simp [scanFuel, this]
    | succ n ih =>
      intro s p f g hn hf hg
      rcases Nat.lt_or_ge s.length 34 with hs | hs
      · cases f <;> cases g <;> simp [scanFuel, hs]
      · obtain ⟨f, rfl⟩ : ∃ k, f = k + 1 := ⟨f - 1, by omega⟩
        obtain ⟨g, rfl⟩ : ∃ k, g = k + 1 := ⟨g - 1, by omega⟩
        have e₁ : ∀ p, scanFuel f (s.drop 34) p = scanFuel g (s.drop 34) p := fun p =>
          ih _ p f g (by simp; omega) (by simp; omega) (by simp; omega)
        have e₂ : ∀ p, scanFuel f (s.drop 1) p = scanFuel g (s.drop 1) p := fun p =>
          ih _ p f g (by simp; omega) (by simp; omega) (by simp; omega)
        simp only [scanFuel, frameLen_eq, discardLen_eq, e₁, e₂]
  exact key s.length s p fuel s.length le_rfl h le_rfl

@[simp] theorem ingested_snoc (h : List Event) (e : Event) : ingested (h ++ [e]) = ingested h ++ ingested [e] := by
  simp [ingested]

@[simp] theorem emitted_snoc (h : List Event) (e : Event) : emitted (h ++ [e]) = emitted h ++ emitted [e] := by
  simp [emitted]

@[simp] theorem popped_snoc (h : List Event) (e : Event) : popped (h ++ [e]) = popped h ++ popped [e] := by
  simp [popped]

@[simp] theorem ingested_nil : ingested [] = [] := rfl
@[simp] theorem emitted_nil : emitted [] = [] := rfl
@[simp] theorem popped_nil : popped [] = [] := rfl

end Sys2Proof.Machine
end

