-- ==== Sys2Proof/Laws/Trace.lean ====
section
/-! SUPPORT. The deterministic FEED, DRAIN and level-H PUMP take only steps that an interleaving may take. -/

namespace Sys2Proof.Machine

theorem windowInstr_of_canScan (s : State) (i : Instr) (h : agentInstr s .sync = some i) :
    i ∈ drainSteps ∧ s.enabled i = true := by
  simp only [agentInstr] at h
  split at h
  · rename_i hc
    simp only [Bool.and_eq_true, State.hasWindow, decide_eq_true_eq, frameLen_eq] at hc
    cases hm : marked s.acc <;>
      simp [windowInstr, Nat.not_lt.mpr hc.2, hm] at h <;> subst h <;>
      simp [drainSteps, State.enabled, State.canExtract, State.canDiscard, State.hasWindow, hc, hm]
  · cases h

theorem candidateInstr_of_canDecode (s : State) (i : Instr) (h : agentInstr s .dec = some i) :
    i ∈ drainSteps ∧ s.enabled i = true := by
  simp only [agentInstr] at h
  split at h
  · rename_i hc
    cases hk : checksumOk s.candBytes <;>
      simp [candidateInstr, hk] at h <;> subst h <;> simp_all [drainSteps, State.enabled, State.canDecOk, State.canDecBad]
  · cases h

/-- R92: what DRAIN finds to do is an enabled one of its four steps. -/
theorem firstMove_work (s : State) (i : Instr) (rest : List Agent) (h : firstMove s [.dec, .sync] = some (i, rest)) :
    i ∈ drainSteps ∧ s.enabled i = true := by
  simp only [firstMove] at h
  split at h
  · rename_i j e
    cases h
    exact candidateInstr_of_canDecode s i e
  · split at h
    · rename_i j e
      cases h
      exact windowInstr_of_canScan s i e
    · cases h

theorem workUntil_interleaved (stop : State → Bool) (bytes : List Byte) (t : State) (allowed : List Instr)
    (ha : ∀ i ∈ drainSteps, i ∈ allowed) (fuel : Nat) :
    ∀ s, Interleaved allowed bytes (workUntil stop fuel s) t → Interleaved allowed bytes s t := by
  induction fuel with
  | zero => exact fun _ h => h
  | succ fuel ih =>
    intro s h
    simp only [workUntil] at h
    split at h
    · exact h
    · split at h
      · exact h
      · rename_i i rest e
        obtain ⟨hi, he⟩ := firstMove_work s i rest e
        split at h
        · rename_i u hu
          exact .work i (ha i hi) he hu (ih u h)
        · exact h
        · exact h

/-- R92: an interleaving that goes on where FEED ended, with the bytes it left, is one from where FEED began. -/
theorem feed_interleaved (allowed : List Instr) (ha : ∀ i ∈ drainSteps, i ∈ allowed) (t : State) (bytes : List Byte) :
    ∀ s, Interleaved allowed (feed bytes s).2 (feed bytes s).1 t → Interleaved allowed bytes s t := by
  induction bytes with
  | nil => exact fun _ h => h
  | cons b rest ih =>
    intro s h
    refine workUntil_interleaved State.inReady _ _ _ ha s.workBound s ?_
    change Interleaved allowed (b :: rest) s.awaitReady t
    simp only [feed] at h
    split at h
    · rename_i hr
      split at h
      · rename_i u hu
        exact .input b hr hu (ih u h)
      · exact h
      · exact h
    · exact h

/-- R92: FEED takes the bytes in order; what it leaves is the rest of them. -/
theorem feed_suffix (bytes : List Byte) : ∀ s, (feed bytes s).2 <:+ bytes := by
  induction bytes with
  | nil => exact fun _ => List.suffix_rfl
  | cons b rest ih =>
    intro s
    simp only [feed]
    split
    · split
      · exact (ih _).trans (List.suffix_cons b rest)
      · exact List.suffix_rfl
      · exact List.suffix_rfl
    · exact List.suffix_rfl

/-- R92: a level-H PUMP that ends with nothing offered and nothing left to drain is one of the interleavings. -/
theorem pumpSteps_interleaved (s : State) (bytes : List Byte) (h : (s.pumpSteps bytes).2 = [])
    (hd : ∀ i ∈ drainSteps, (s.pumpSteps bytes).1.enabled i = false) :
    Interleaved drainSteps bytes s (s.pumpSteps bytes).1 := by
  refine feed_interleaved _ (fun _ hi => hi) _ _ s ?_
  refine workUntil_interleaved (fun _ => false) _ _ _ (fun _ hi => hi) (feed bytes s).1.workBound _ ?_
  change Interleaved drainSteps (s.pumpSteps bytes).2 (s.pumpSteps bytes).1 _
  rw [h]
  exact .done hd

end Sys2Proof.Machine
end

