-- ==== Sys2Proof/Tests/Slice0.lean ====
section
/-! SUPPORT. Tests whose expected results come from 95_test_vectors.md (the vector is named beside each), the words of
30_encoding.md written out, the ill-formed operands that `Instr.wf` refuses, and one witness per hypothesis of the
obligations. -/

namespace Sys2Proof.Tests
open Sys2Proof.Machine

/-! ### Byte strings of 95_test_vectors.md section 2 -/

def bytesF1 : List Byte :=
  [0xBD, 0xDB, 0x0A, 0x00, 0x00, 0x80, 0x3F, 0, 0, 0, 0, 0, 0, 0, 0, 0, 0, 0, 0, 0, 0, 0, 0,
   0xCD, 0xCC, 0x1C, 0x41, 0, 0, 0, 0, 0, 0, 0x8F]

def bytesF1x : List Byte := bytesF1.take 33 ++ [0x8E]

def bytesF2 : List Byte :=
  [0xBD, 0xDB, 0x0A, 0x00, 0x00, 0x20, 0xC0, 0x00, 0x00, 0x00, 0x3F, 0x00, 0x00, 0xC8, 0x42, 0x00, 0x00, 0x80, 0x3E,
   0x00, 0x00, 0x40, 0xBF, 0x00, 0x00, 0x18, 0x41, 0x01, 0x02, 0x03, 0x04, 0x05, 0x06, 0x26]

def bytesF3 : List Byte := [0xBD, 0xDB, 0x0A, 0x00, 0x00, 0x80, 0x3F, 0xBD, 0xDB, 0x0A] ++ List.replicate 23 0 ++ [0xBF]

def bytesF4 : List Byte :=
  [0xBD, 0xDB, 0x0A, 0x01, 0x00, 0xC0, 0x7F, 0x00, 0x00, 0x80, 0xFF, 0x00, 0x00, 0x00, 0x80, 0x01, 0x00, 0x00, 0x00,
   0x00, 0x00, 0x80, 0x7F, 0xFF, 0xFF, 0xFF, 0xFF, 0xFF, 0xFF, 0xFF, 0xFF, 0xFF, 0xFF, 0xD3]

def bytesJ : List Byte := [0x00, 0xFF, 0xBD, 0x11, 0x22]

def sample1 : Sample := ⟨0x3F800000, 0, 0, 0, 0, 0x411CCCCD⟩
def sample2 : Sample := ⟨0xC0200000, 0x3F000000, 0x42C80000, 0x3E800000, 0xBF400000, 0x41180000⟩
def sample4 : Sample := ⟨0x7FC00001, 0xFF800000, 0x80000000, 0x00000001, 0x7F800000, 0xFFFFFFFF⟩

/-- The parameters of the vectors: ACC_CAP and Q_CAP unbounded, DIAG_W = 8. -/
def vectorParams : Params := { accCap := none, qCap := none, diagW := 8 }

/-- Reset, then `START ok`, with the given bytes in the accumulator. -/
def withAcc (bytes : List Byte) : State := { State.resetWith vectorParams with run := .running, acc := bytes }

/-- A candidate in the slot of a running block, taken at position 0. -/
def withCand (bytes : List Byte) : State := { withAcc [] with cand := windowOf bytes, candValid := true, pos := 34 }

/-- The smallest parameters (R182). -/
def smallest : Params := { accCap := some 34, qCap := some 1, diagW := 1 }

def after (o : Host.Outcome State Fault Refusal) : Option State :=
  match o with
  | .next t => some t
  | _ => none

/-- The state after one step with the given port signals and order of agents. -/
def cycleOf (s : State) (ports : Ports) (order : List Agent) : Option State :=
  after (step { s with inputs := [.cycle ports order] })

/-! ### Decoding, from words written out -/

/-- V1: the fields of `F1`. -/
theorem test_decode_frame_f1 :
    decode (.frame bytesF1) = .ok (.frame { payload := sample1, reserved := 0, checksum := 0x8F }) := by decide

/-- V2: the fields of `F2`, reserved bytes 01 to 06 in arrival order. -/
theorem test_decode_frame_f2 :
    decode (.frame bytesF2) = .ok (.frame { payload := sample2, reserved := 0x060504030201, checksum := 0x26 }) := by
  decide

/-- V2: the word `W` of `F2` as it is written in the vector. -/
theorem test_word_f2 :
    bytesOfWord 0x2606050403020141180000BF4000003E80000042C800003F000000C02000000ADBBD = bytesF2 := by decide

theorem test_encode_frame_f2 :
    encode (.frame { payload := sample2, reserved := 0x060504030201, checksum := 0x26 }) = .frame bytesF2 := by decide

/-- R80, R82: other lengths and other heads are rejected by name. -/
theorem test_decode_rejects :
    decode (.frame (bytesF1.take 33)) = .error .wrongLength ∧ decode (.frame (bytesF1 ++ [0])) = .error .wrongLength ∧
    decode (.frame (0xBC :: bytesF1.tail)) = .error .noMarker ∧
    decode (.candidate (bytesF1.take 33)) = .error .wrongLength ∧
    decode (.control {}) = .error .notTaken ∧
    decode (.control { running := true, ports := { start := true } }) = .error .notTaken ∧
    decode (.control { ports := { stop := true, srcEnd := true } }) = .error .notTaken ∧
    decode (.input { ports := { inValid := true } }) = .error .notTaken ∧
    decode (.output { ports := { outReady := true } }) = .error .notTaken := by decide

/-- V6: the window classes, the marker in the wrong byte, reversed, shifted, absent, and one byte too few. -/
theorem test_decode_windows :
    decode (.window bytesF1) = .ok .scanExtract ∧ decode (.window (bytesF1.take 33)) = .ok .scanWait ∧
    decode (.window ([0xBD, 0xDB, 0x0B] ++ bytesF1.drop 3)) = .ok .scanDiscard ∧
    decode (.window ([0xBD, 0xDA, 0x0A] ++ bytesF1.drop 3)) = .ok .scanDiscard ∧
    decode (.window ([0xBC, 0xDB, 0x0A] ++ bytesF1.drop 3)) = .ok .scanDiscard ∧
    decode (.window ([0xDB, 0x0A, 0xBD] ++ List.replicate 37 0)) = .ok .scanDiscard ∧
    decode (.window ([0x0A, 0xDB, 0xBD] ++ List.replicate 31 0)) = .ok .scanDiscard := by decide

/-- V1, V3: the candidate classes. -/
theorem test_decode_candidates :
    decode (.candidate bytesF1) = .ok .decOk ∧ decode (.candidate bytesF1x) = .ok .decBad := by decide

/-- R89: the port events, each with the signals its row names. -/
theorem test_decode_ports :
    decode (.input { inReady := true, ports := { inValid := true, inData := 0x8F } }) = .ok (.portIngest 0x8F) ∧
    decode (.output { outValid := true, ports := { outReady := true } }) = .ok .pop ∧
    decode (.control { ports := { start := true, openOk := true } }) = .ok .startOk ∧
    decode (.control { ports := { start := true, openOk := false } }) = .ok .startFail ∧
    decode (.control { running := true, ports := { stop := true } }) = .ok .stop ∧
    decode (.control { running := true, ports := { srcEnd := true, srcEndCause := false } }) = .ok .srcEndEos ∧
    decode (.control { running := true, ports := { srcEnd := true, srcEndCause := true } }) = .ok .srcEndReadFail ∧
    decode (.control { running := true, ports := { rst := true, stop := true } }) = .ok .reset := by decide

/-- R89: the procedure calls. -/
theorem test_decode_calls :
    decode (.call (.ingest [0xBD])) = .ok (.ingest [0xBD]) ∧ decode (.call .tryExtractFrame) = .ok .tryExtractFrame ∧
    decode (.call (.decode bytesF1)) = .ok (.decode bytesF1) := by decide

/-- V2 again, through the host's numbering of a table word. -/
theorem test_table_bytes_f2 :
    tableBytes 272 0x2606050403020141180000BF4000003E80000042C800003F000000C02000000ADBBD = bytesF2 := by decide

/-- R88: the match of the table's row, and a word that does not match. -/
theorem test_table_words :
    decodeTableWord 272 0x0ADBBD = some .scanExtract ∧ decodeTableWord 24 0x0ADBBD = some .scanExtract ∧
    decodeTableWord 24 0x0ADBBC = some .scanDiscard := by decide

/-! ### Well-formedness -/

/-- R130: a candidate of 33 bytes, one of 35, and one with another head are ill-formed. -/
theorem test_wf_refuses :
    (Instr.decode (bytesF1.take 33)).wf = false ∧ (Instr.decode (bytesF1 ++ [0])).wf = false ∧
    (Instr.decode (0x00 :: bytesF1.tail)).wf = false := by decide

theorem test_wf_accepts : (Instr.decode bytesF1).wf = true ∧ (Instr.ingest []).wf = true := by decide

/-! ### Arithmetic -/

/-- X1, X3, X5, X6, X10. -/
theorem test_xor8 :
    xor8 [] = 0x00 ∧ xor8 [0xBD, 0xDB, 0x0A] = 0x6C ∧ xor8 [1, 2, 3, 4, 5, 6] = 0x07 ∧
    xor8 [0xCD, 0xCC, 0x1C, 0x41] = 0x5C ∧ xor8 ((List.range 31).map fun i => BitVec.ofNat 8 (i + 1)) = 0x00 := by decide

/-- L3, L4, L5. -/
theorem test_le32 :
    le32 [1, 2, 3, 4] 0 = 0x04030201 ∧ le32 [0xFF, 0, 0, 0] 0 = 0x000000FF ∧ le32 [0, 0, 0, 0x80] 0 = 0x80000000 := by
  decide

/-- V1, V2: `out_data`. -/
theorem test_out_data :
    { withAcc [] with outq := [sample1] : State }.outData = 0x411CCCCD000000000000000000000000000000003F800000 ∧
    { withAcc [] with outq := [sample2] : State }.outData = 0x41180000BF4000003E80000042C800003F000000C0200000 := by
  decide

/-! ### Level O -/

/-- R176, P1: the concrete scenario. -/
theorem test_frame_f1 :
    (after (exec (.frame { payload := sample1, reserved := 0, checksum := 0x8F }) (withAcc []))).map
      (fun t => (t.outq, t.acc, t.pos, t.nIn, t.nOk)) = some ([sample1], [], 34, 34, 1) := by decide

/-- P4: a frame behind 8 bytes of garbage that begin with the marker is lost. -/
theorem test_frame_lost_behind_false_marker :
    (after (exec (.frame { payload := sample1, reserved := 0, checksum := 0x8F })
      (withAcc [0xBD, 0xDB, 0x0A, 1, 2, 3, 4, 5]))).map (fun t => (t.outq, t.acc, t.pos, t.nBad, t.csumErrCount))
      = some ([], [0x41, 0, 0, 0, 0, 0, 0, 0x8F], 34, 1, 1) := by decide

/-- I2. -/
theorem test_ingest : (after (exec (.ingest [0xBD, 0xDB]) (withAcc [1, 2]))).map (fun t => (t.acc, t.nIn)) =
    some ([1, 2, 0xBD, 0xDB], 2) := by decide

/-- I1: a zero-length input is a no-op. -/
theorem test_ingest_empty : after (exec (.ingest []) (withAcc [1])) = some (withAcc [1]) := by decide

/-- T12: five discards, then the frame. -/
theorem test_try_extract_t12 :
    (after (exec .tryExtractFrame (withAcc (bytesJ ++ bytesF1)))).map (fun t => (t.reply, t.acc, t.pos, t.nDisc)) =
      some (.frame 5 (windowOf bytesF1), [], 39, 5) := by decide

/-- T6: 40 zero bytes, seven discards, 33 left. -/
theorem test_try_extract_t6 :
    (after (exec .tryExtractFrame (withAcc (List.replicate 40 0)))).map (fun t => (t.reply, t.acc, t.pos)) =
      some (.noFrame, List.replicate 33 0, 7) := by decide

/-- D4: every bit pattern passes. -/
theorem test_decode_f4 : (after (exec (.decode bytesF4) (withAcc []))).map (fun t => (t.reply, t.nOk)) =
    some (.sample sample4, 1) := by decide

/-- D3. -/
theorem test_decode_f1x : (after (exec (.decode bytesF1x) (withAcc []))).map (fun t => (t.reply, t.nBad)) =
    some (.checksumMismatch, 1) := by decide

/-- R202: two extractions, then `decode` of the first candidate: the offset is the first one's, and the second stays
outstanding. -/
theorem test_decode_earlier_candidate :
    (after (runTrace [.tryExtractFrame, .tryExtractFrame, .decode bytesF1x] (withAcc (bytesF1x ++ bytesF2)))).map
      (fun t => (t.hist, t.taken, t.nBad)) = some ([.csumBad 0], [(34, windowOf bytesF2)], 1) := by decide

/-! ### Level H, single steps -/

/-- H1. -/
theorem test_ingest_h1 :
    (after (exec (.portIngest 0x8F) (withAcc (bytesF1.take 33)))).map (fun t => (t.acc, t.nIn, t.hasWindow)) =
      some (bytesF1, 1, true) := by decide

/-- H2: a full accumulator takes no byte. -/
theorem test_ingest_h2 : after (exec (.portIngest 0) { withAcc bytesF1 with params := smallest }) =
    some { withAcc bytesF1 with params := smallest } := by decide

/-- H4. -/
theorem test_extract_h4 :
    (after (exec .scanExtract (withAcc bytesF1))).map (fun t => (t.candBytes, t.candValid, t.acc, t.pos, t.hist)) =
      some (bytesF1, true, [], 34, [.extract 0]) := by decide

/-- H6: no scan step while a candidate is pending. -/
theorem test_extract_h6 : after (exec .scanExtract { withAcc bytesF2 with candValid := true }) =
    some { withAcc bytesF2 with candValid := true } := by decide

/-- H5. -/
theorem test_discard_h5 :
    (after (exec .scanDiscard (withAcc ([0x00, 0xFF] ++ bytesF1)))).map
      (fun t => (t.acc, t.pos, t.nDisc, t.hist, t.out.evMarkerMismatch)) =
      some (0xFF :: bytesF1, 1, 1, [.discard 0], true) := by decide

/-- H7. -/
theorem test_wait_h7 : after (exec .scanWait (withAcc (bytesF1.take 33))) = some (withAcc (bytesF1.take 33)) := by decide

/-- D5. -/
theorem test_dec_ok_d5 :
    (after (exec .decOk (withCand bytesF1))).map (fun t => (t.outq, t.candValid, t.nOk, t.hist, t.out.evFrameOk)) =
      some ([sample1], false, 1, [.frameOk 0 sample1], true) := by decide

/-- D7: a full queue holds a good candidate. -/
theorem test_dec_ok_d7 :
    after (exec .decOk { withCand bytesF1 with params := smallest, outq := [sample2] }) =
      some { withCand bytesF1 with params := smallest, outq := [sample2] } := by decide

/-- D6. -/
theorem test_dec_bad_d6 :
    (after (exec .decBad (withCand bytesF1x))).map
      (fun t => (t.candValid, t.nBad, t.csumErrCount, t.hist, t.out.evCsumMismatch)) =
      some (false, 1, 1, [.csumBad 0], true) := by decide

/-- V7: the counter of width 2 stays at 3. -/
theorem test_dec_bad_v7 :
    (after (exec .decBad { withCand bytesF1x with params := { vectorParams with diagW := 2 }, csumErrCount := 3, nBad := 3 })).map
      (fun t => (t.csumErrCount, t.nBad)) = some (3, 4) := by decide

/-- K6. -/
theorem test_pop_k6 :
    (after (exec .pop { withAcc [] with run := .stopped, outq := [sample1, sample2] })).map
      (fun t => (t.outq, t.out.delivered, t.hist)) = some ([sample2], some sample1, [.pop sample1]) := by decide

/-- K1. -/
theorem test_start_ok_k1 :
    (after (exec .startOk State.reset)).map (fun t => (t.run, t.stopCause, t.inReady, t.hist)) =
      some (.running, 0, true, [.startOk]) := by decide

/-- K2. -/
theorem test_start_fail_k2 :
    (after (exec .startFail State.reset)).map
      (fun t => (t.run, t.stopCause, t.out.stopEvent, t.out.openFailure, t.hist)) =
      some (.stopped, 3, false, true, [.openFail]) := by decide

/-- K3. -/
theorem test_stop_k3 :
    (after (exec .stop (withAcc (List.replicate 40 0)))).map
      (fun t => (t.run, t.stopCause, t.out.stopEvent, t.acc.length, t.canDiscard)) =
      some (.stopped, 6, true, 40, false) := by decide

/-- K11: a stopped block ignores `stop`. -/
theorem test_stop_k11 : after (exec .stop { withAcc [] with run := .stopped, stopCause := 6 }) =
    some { withAcc [] with run := .stopped, stopCause := 6 } := by decide

/-- K5. -/
theorem test_end_eos_k5 :
    (after (exec .srcEndEos (withAcc (List.replicate 10 0)))).map
      (fun t => (t.run, t.stopCause, t.out.stopEvent, t.acc.length)) = some (.stopped, 5, true, 10) := by decide

/-- K4. -/
theorem test_end_fail_k4 :
    (after (exec .srcEndReadFail (withAcc (List.replicate 10 0)))).map
      (fun t => (t.run, t.stopCause, t.out.stopEvent, t.acc.length, t.hist)) =
      some (.stopped, 4, true, 10, [.srcEnd .readFail]) := by decide

/-- K8. -/
theorem test_reset_k8 : after (exec .reset State.reset) = some State.reset := by decide

/-- K9. -/
theorem test_reset_k9 :
    after (exec .reset { withCand bytesF1 with acc := bytesJ, outq := [sample1, sample2], csumErrCount := 5 }) =
      some (State.resetWith vectorParams) := by decide

/-! ### The pseudo-operations of R92 -/

/-- P2(c), from the 34th byte on: each `IN` of FEED waits until a DISC has made room. -/
theorem test_feed_p2c :
    (fun r => (r.1.acc, r.1.pos, r.1.nIn, r.2)) (feed (bytesF1.drop 29)
      { withAcc (bytesJ ++ bytesF1.take 29) with params := smallest, nIn := 34 }) = (bytesF1, 5, 39, []) := by decide

/-- P2(c): then the DRAIN of a level-H PUMP. -/
theorem test_pump_steps_p2c :
    (fun r => (r.1.acc, r.1.pos, r.1.nDisc, r.1.nOk, r.1.outq, r.2)) (State.pumpSteps
      { withAcc (bytesJ ++ bytesF1.take 29) with params := smallest, nIn := 34 } (bytesF1.drop 29)) =
      ([], 39, 5, 1, [sample1], []) := by decide

/-- P6: behind a full accumulator, a held candidate and a full queue an extra byte is not taken. -/
theorem test_feed_p6 :
    (fun r => (r.1.acc, r.2)) (feed [0x55]
      { withCand bytesF2 with params := smallest, acc := bytesF1, outq := [sample1] }) = (bytesF1, [0x55]) := by decide

/-! ### Steps: what is fetched, and events of one clock cycle -/

/-- K13: `rst` and a byte offered. -/
theorem test_cycle_k13 :
    (cycleOf (withAcc (bytesF1.take 33)) { rst := true, inValid := true } [.src]).map (fun t => (t.run, t.acc, t.turns)) =
      some (.stopped, [], []) := by decide

/-- K14: `stop` and a byte offered: STOP, and then nothing is left to do in the cycle. -/
theorem test_cycle_k14 :
    ((cycleOf (withAcc (bytesF1.take 33)) { stop := true, inValid := true } [.src]).bind fun t => after (step t)).map
      (fun t => (t.run, t.stopCause, t.acc, t.hist)) = some (.stopped, 6, bytesF1.take 33, [.stop]) := by decide

/-- K15: `stop` and `src_end` with cause 1: SRC_END's cause is kept. -/
theorem test_cycle_k15 :
    (cycleOf (withAcc []) { stop := true, srcEnd := true, srcEndCause := true } []).map
      (fun t => (t.run, t.stopCause, t.out.stopEvent)) = some (.stopped, 4, true) := by decide

/-- K16: POP first, then DEC_OK in the same cycle. -/
theorem test_cycle_k16 :
    ((cycleOf { withCand bytesF2 with params := smallest, outq := [sample1] } { outReady := true } [.sink, .dec]).bind
      fun t => after (step t)).map (fun t => (t.outq, t.candValid, t.out.delivered)) =
      some ([sample2], false, some sample1) := by decide

/-- From reset, with nothing placed, the block holds (R240). -/
theorem test_reset_holds : (after (step State.reset)).map (fun t => (t.run, t.acc, t.hist)) = some (.stopped, [], []) := by
  decide

/-- The placed word is what the next step scans. -/
theorem test_fetch_word :
    (after (step (State.reset.withFetchWord 24 0x0ADBBD))).map (fun t => (t.candValid, t.acc, t.hist)) =
      some (true, [], [.extract 0]) := by decide

/-! ### Witnesses: concrete states and operands that meet the hypotheses of each obligation, every clause of it -/

/-- A running block with the smallest parameters that has ingested `F1` and one byte more, with `F1` in the slot. -/
def midway : State :=
  { withCand bytesF1 with
    params := smallest, acc := [0x11], nIn := 35
    hist := .startOk :: (bytesF1 ++ [0x11]).map .ingest ++ [.extract 0] }

/-- The same block after DEC_OK. -/
def decoded : State :=
  { midway with candValid := false, outq := [sample1], nOk := 1, hist := midway.hist ++ [.frameOk 0 sample1] }

/-- A block in the given run state whose environment's only entry is one clock cycle. -/
def inCycle (run : RunState) (ports : Ports) (order : List Agent) : State :=
  { withAcc [] with run := run, inputs := [.cycle ports order] }

theorem test_witness_DecodeOfEncode :
    (Instr.decode bytesF1).wf = true ∧ (Instr.ingest bytesJ).wf = true ∧
    (Instr.frame { payload := sample4, reserved := 0xFFFFFFFFFFFF, checksum := 0 }).wf = true ∧
    Instr.scanWait.wf = true := by decide

theorem test_witness_FrameBytesDecodeAndReencode :
    (bytesF1.take 33).length ≠ 34 ∧ (bytesF1 ++ [0]).length ≠ 34 ∧
    (0xBC :: bytesF1.tail).length = 34 ∧ (0xBC :: bytesF1.tail).take 3 ≠ [0xBD, 0xDB, 0x0A] ∧
    bytesF4.length = 34 ∧ bytesF4.take 3 = [0xBD, 0xDB, 0x0A] := by decide

theorem test_witness_WindowClassFollowsMatchAndMask :
    (bytesF1.take 33).length < 34 ∧ ([] : List Byte).length < 34 ∧ bytesF1.length = 34 := by decide

theorem test_witness_FrameFieldsAreWordSlices :
    (bytesOfWord 0x2606050403020141180000BF4000003E80000042C800003F000000C02000000ADBBD).getD 33 0 = 0x26 ∧ 33 < 34 := by
  decide

theorem test_witness_XorIsColumnParity : 0 < 8 ∧ 7 < 8 ∧ [1, 2, (3 : Byte)].Perm [3, 1, 2] := by decide

theorem test_witness_ValidIffWholeFrameXorsToZero : bytesF1.length = 34 ∧ bytesF1x.length = 34 := by decide

/-- R133(a): the last marker byte and the first byte behind the marker. -/
theorem test_witness_OneCorruptByteIsNeverDecoded :
    bytesF1.length = 34 ∧ marked bytesF1 = true ∧ checksumOk bytesF1 = true ∧
    (2 < 3 ∧ (0x0B : Byte) ≠ bytesF1.getD 2 0) ∧ (3 ≤ 3 ∧ (0x01 : Byte) ≠ bytesF1.getD 3 0) ∧
    33 < 34 ∧ (0x8E : Byte) ≠ bytesF1.getD 33 0 := by decide

/-- V8: bit 0 flipped in two bytes, and in one. -/
theorem test_witness_EvenFlipsPerColumnAreAccepted :
    bytesF1.length = 34 ∧ marked bytesF1 = true ∧ checksumOk bytesF1 = true ∧
    ((bytesF1.set 3 0x01).set 4 0x01).length = 34 ∧ marked ((bytesF1.set 3 0x01).set 4 0x01) = true ∧
    checksumOk ((bytesF1.set 3 0x01).set 4 0x01) = true ∧ checksumOk (bytesF1.set 3 0x01) = false := by decide

theorem test_witness_ReservedBytesReachNoOutput :
    (bytesF1.drop 3).take 24 = (((bytesF1.set 27 0x55).set 33 0).drop 3).take 24 := by decide

/-- No discard, five discards, none with 33 bytes, none with 34. -/
theorem test_witness_TryExtractFindsFirstMarker :
    (0 + 34 ≤ bytesF1.length ∧ marked (bytesF1.drop 0) = true) ∧
    (5 + 34 ≤ (bytesJ ++ bytesF1).length ∧ (∀ j, j < 5 → marked ((bytesJ ++ bytesF1).drop j) = false) ∧
      marked ((bytesJ ++ bytesF1).drop 5) = true) ∧
    (∀ j, j + 34 ≤ (withAcc (bytesF1.take 33)).acc.length → marked ((withAcc (bytesF1.take 33)).acc.drop j) = false) ∧
    (∀ j, j + 34 ≤ (withAcc (List.replicate 34 0)).acc.length →
      marked ((withAcc (List.replicate 34 0)).acc.drop j) = false) := by
  refine ⟨by decide, by decide, fun j h => ?_, fun j h => ?_⟩
  · have : (withAcc (bytesF1.take 33)).acc.length = 33 := by decide
    omega
  · have : (withAcc (List.replicate 34 0)).acc.length = 34 := by decide
    obtain rfl : j = 0 := by omega
    decide

/-- A good and a bad candidate, the bad one outstanding since offset 7. -/
theorem test_witness_DecodeReturnsSampleOrError :
    bytesF1.length = 34 ∧ xor8 (bytesF1.take 33) = bytesF1.getD 33 0 ∧
    bytesF1x.length = 34 ∧ xor8 (bytesF1x.take 33) ≠ bytesF1x.getD 33 0 ∧
    (7, windowOf bytesF1x) ∈ ({ withAcc [] with taken := [(7, windowOf bytesF1x)] } : State).taken := by decide

theorem test_witness_DecodeRefusesOtherLengths : (bytesF1.take 33).length ≠ 34 ∧ ([] : List Byte).length ≠ 34 := by
  decide

theorem test_witness_ChunkingDoesNotAffectOutput : (withAcc []).acc = [] := rfl

theorem test_witness_FrameIsPumped :
    (withAcc []).acc = [] ∧ xor8 (frameBody sample1 0) = 0x8F ∧ xor8 (frameBody sample1 0) ≠ 0x8E := by decide

theorem test_witness_ConcreteScenario : (withAcc []).acc = [] := rfl

/-- A frame behind five bytes, and 34 bytes without a marker. -/
theorem test_witness_TryExtractIsScanSteps :
    (withAcc (bytesJ ++ bytesF1)).run = .running ∧ (withAcc (bytesJ ++ bytesF1)).candValid = false ∧
    (5 + 34 ≤ (bytesJ ++ bytesF1).length ∧ (∀ j, j < 5 → marked ((bytesJ ++ bytesF1).drop j) = false) ∧
      marked ((bytesJ ++ bytesF1).drop 5) = true) ∧
    (withAcc (List.replicate 34 0)).run = .running ∧ (withAcc (List.replicate 34 0)).candValid = false ∧
    (∀ j, j + 34 ≤ (withAcc (List.replicate 34 0)).acc.length →
      marked ((withAcc (List.replicate 34 0)).acc.drop j) = false) := by
  refine ⟨by decide, by decide, by decide, by decide, by decide, fun j h => ?_⟩
  have : (withAcc (List.replicate 34 0)).acc.length = 34 := by decide
  obtain rfl : j = 0 := by omega
  decide

/-- Room for one more byte of 34, a full accumulator, a stopped block. -/
theorem test_witness_IngestStepTakesOneByte :
    ((withAcc (bytesF1.take 33)).run = .running ∧
      ∀ c, ({ withAcc (bytesF1.take 33) with params := smallest } : State).params.accCap = some c →
        (withAcc (bytesF1.take 33)).acc.length < c) ∧
    State.reset.run = .stopped ∧
    (({ withAcc bytesF1 with params := smallest } : State).params.accCap = some 34 ∧ 34 ≤ (withAcc bytesF1).acc.length) := by
  refine ⟨⟨rfl, fun c h => ?_⟩, by decide, by decide⟩
  cases h
  decide

theorem test_witness_ScanExtractTakesWindow :
    (withAcc bytesF1).run = .running ∧ (withAcc bytesF1).candValid = false ∧ 34 ≤ (withAcc bytesF1).acc.length ∧
    (withAcc bytesF1).acc.getD 0 0 = 0xBD ∧ (withAcc bytesF1).acc.getD 1 0 = 0xDB ∧
    (withAcc bytesF1).acc.getD 2 0 = 0x0A := by decide

theorem test_witness_ScanDiscardDropsOneByte :
    (withAcc (List.replicate 34 0)).run = .running ∧ (withAcc (List.replicate 34 0)).candValid = false ∧
    34 ≤ (withAcc (List.replicate 34 0)).acc.length ∧
    ¬((withAcc (List.replicate 34 0)).acc.getD 0 0 = 0xBD ∧ (withAcc (List.replicate 34 0)).acc.getD 1 0 = 0xDB ∧
      (withAcc (List.replicate 34 0)).acc.getD 2 0 = 0x0A) := by decide

theorem test_witness_ShortWindowWaits : (withAcc (bytesF1.take 33)).acc.length < 34 := by decide

/-- Room for one sample, and a full queue. -/
theorem test_witness_DecOkEmitsSample :
    midway.run = .running ∧ midway.candValid = true ∧
    xor8 (midway.cand.toList.take 33) = midway.cand.toList.getD 33 0 ∧
    (∀ c, midway.params.qCap = some c → midway.outq.length < c) ∧
    ({ midway with outq := [sample2] } : State).params.qCap = some 1 ∧
    1 ≤ ({ midway with outq := [sample2] } : State).outq.length := by
  refine ⟨rfl, rfl, by decide, fun c h => ?_, rfl, by decide⟩
  cases h
  decide

theorem test_witness_DecBadDropsCandidate :
    (withCand bytesF1x).run = .running ∧ (withCand bytesF1x).candValid = true ∧
    xor8 ((withCand bytesF1x).cand.toList.take 33) ≠ (withCand bytesF1x).cand.toList.getD 33 0 := by decide

theorem test_witness_PopDeliversFront :
    ({ State.reset with outq := [sample1, sample2] } : State).outq = sample1 :: [sample2] ∧ State.reset.outq = [] := by
  decide

theorem test_witness_StartSucceedsOrReports : State.reset.run = .stopped ∧ (withAcc []).run = .running := by decide

theorem test_witness_StopHaltsBlock :
    (withAcc bytesF1).run = .running ∧ (after (exec .stop (withAcc bytesF1))).isSome = true := by decide

theorem test_witness_SourceEndHaltsBlock :
    (withAcc bytesF1).run = .running ∧ (after (exec .srcEndEos (withAcc bytesF1))).isSome = true ∧
    (after (exec .srcEndReadFail (withAcc bytesF1))).isSome = true := by decide

theorem test_witness_ResetStateValues_ResetMeetsInvariants : State.reset = State.resetWith Config.resetParams := rfl

theorem test_witness_RunStateMachine :
    Instr.scanWait.level = .levelH ∧ Instr.reset.level = .levelH ∧ Instr.startOk.level = .levelH := by decide

/-- Each operation in a state that does not enable it, for every condition of R89 but one that holds. -/
theorem test_witness_HeldStepChangesNothing :
    State.reset.inReady = false ∧ ({ withAcc bytesF1 with params := smallest } : State).inReady = false ∧
    ¬(34 ≤ (withAcc (bytesF1.take 33)).acc.length) ∧ marked (withAcc (List.replicate 34 0)).acc ≠ true ∧
    marked (withAcc bytesF1).acc ≠ false ∧ midway.candValid ≠ false ∧
    checksumOk (withCand bytesF1x).candBytes ≠ true ∧
    ({ midway with outq := [sample2] } : State).qFull ≠ false ∧ checksumOk (withCand bytesF1).candBytes ≠ false ∧
    State.reset.outq = [] ∧ (withAcc []).run = .running ∧ State.reset.run = .stopped := by decide

/-- A POP of a stopped block, a START and a RESET. -/
theorem test_witness_StoppedBlockIsFrozen :
    (inCycle .stopped { outReady := true } []).levelHOnly = true ∧
    (inCycle .stopped { outReady := true } []).run = .stopped ∧
    (after (step { inCycle .stopped { outReady := true } [] with outq := [sample1] })).map (·.outq) = some [] ∧
    (fetch (inCycle .stopped { start := true, openOk := true } [])).1 = some .startOk ∧
    (fetch (inCycle .stopped { rst := true } [])).1 = some .reset := by decide

/-- A block that waits for bytes, one that waits for the sink, and one that does not hold. -/
theorem test_witness_RunningBlockHoldsOnlyForBytesOrSink :
    (withAcc (bytesF1.take 33)).run = .running ∧ (withAcc (bytesF1.take 33)).acc.length < 34 ∧
    ({ midway with outq := [sample2] } : State).run = .running ∧
    ({ midway with outq := [sample2] } : State).canDecOk = false ∧ (withAcc bytesF1).canExtract = true := by decide

theorem test_witness_OutDataShowsFront : decoded.outq = sample1 :: [] := rfl

theorem test_witness_StepRunsDecodedOperation :
    ({ withAcc bytesF1 with turns := [.sync] } : State).turns = [.sync] ∧ (withAcc bytesF1).run = .running ∧
    (withAcc bytesF1).candValid = false ∧ 34 ≤ (withAcc bytesF1).acc.length ∧
    decode (.window (withAcc bytesF1).acc) = .ok .scanExtract ∧
    ({ State.reset with inputs := [.call .tryExtractFrame] } : State).turns = [] ∧
    decode (.call .tryExtractFrame) = .ok .tryExtractFrame ∧
    (fetch (inCycle .running { stop := true } [])).1 = some .stop ∧
    (fetch { inCycle .running {} [] with acc := bytesF1 }).1 = none := by decide

theorem test_witness_ResetWinsItsCycle :
    (inCycle .running { rst := true } [.dec]).turns = [] ∧
    (inCycle .running { rst := true } [.dec]).inputs = .cycle { rst := true } [.dec] :: [] := by decide

/-- STOP alone, and SRC_END with either cause beside it. -/
theorem test_witness_StopComesBeforeDataSteps :
    (inCycle .running { stop := true } [.src]).turns = [] ∧
    (inCycle .running { stop := true } [.src]).inputs = .cycle { stop := true } [.src] :: [] ∧
    (inCycle .running { stop := true } [.src]).run = .running ∧
    (inCycle .running { stop := true, srcEnd := true } []).inputs = .cycle { stop := true, srcEnd := true } [] :: [] ∧
    (inCycle .running { srcEnd := true, srcEndCause := true } []).inputs =
      .cycle { srcEnd := true, srcEndCause := true } [] :: [] := by decide

/-- A byte taken, a byte offered to a stopped block, and no byte. -/
theorem test_witness_OfferedByteIsTakenWhenReady :
    (inCycle .running { inValid := true } []).turns = [] ∧
    (inCycle .running { inValid := true } []).inputs = .cycle { inValid := true } [] :: [] ∧
    (inCycle .running { inValid := true } []).inReady = true ∧
    (inCycle .stopped { inValid := true } []).inReady = false ∧
    (inCycle .running {} []).inputs = .cycle {} [] :: [] := by decide

/-- A sample taken, an empty queue, and a sink that is not ready. -/
theorem test_witness_FrontIsTakenWhenReady :
    ({ inCycle .running { outReady := true } [] with outq := [sample1] } : State).turns = [] ∧
    ({ inCycle .running { outReady := true } [] with outq := [sample1] } : State).inputs =
      .cycle { outReady := true } [] :: [] ∧
    ({ inCycle .running { outReady := true } [] with outq := [sample1] } : State).outq = sample1 :: [] ∧
    (inCycle .running { outReady := true } []).outq = [] ∧ (inCycle .running {} []).inputs = .cycle {} [] :: [] := by
  decide

/-- Both outcomes of the open. -/
theorem test_witness_StartIsTakenWhenStopped :
    (inCycle .stopped { start := true, openOk := true } [.src]).turns = [] ∧
    (inCycle .stopped { start := true, openOk := true } [.src]).run = .stopped ∧
    (inCycle .stopped { start := true, openOk := true } [.src]).inputs =
      .cycle { start := true, openOk := true } [.src] :: [] ∧
    (inCycle .stopped { start := true } []).inputs = .cycle { start := true } [] :: [] := by decide

theorem test_witness_EveryStepAnswers :
    ({ State.reset with inputs := [.call (.decode bytesF1), .cycle {} []] } : State).callsHaveCandidates = true := by
  decide

/-- The hypotheses of StepKeepsStateInvariants at a state with a candidate, bytes and finite storage. -/
theorem test_witness_StepKeepsStateInvariants :
    midway.levelHOnly = true ∧ StateInv midway ∧ (after (step midway)).isSome = true := by
  refine ⟨by decide, ⟨?_, ?_, by decide, by decide, by decide, by decide, by decide, by decide, by decide⟩, by decide⟩
  · intro c h
    cases h
    decide
  · intro c h
    cases h
    decide

theorem test_witness_StepKeepsStreamRefinement :
    midway.levelHOnly = true ∧ StreamInv midway ∧ (after (step midway)).isSome = true := by
  refine ⟨by decide, ⟨by decide, by decide⟩, by decide⟩

theorem test_witness_StepKeepsDeliveryOrder :
    decoded.levelHOnly = true ∧ FifoInv decoded ∧ (after (step decoded)).isSome = true := by
  refine ⟨by decide, ?_, by decide⟩
  unfold FifoInv
  decide

theorem test_witness_StepKeepsEventCounts :
    decoded.levelHOnly = true ∧ CountInv decoded ∧ (after (step decoded)).isSome = true := by
  refine ⟨by decide, ⟨by decide, by decide, by decide, by decide⟩, by decide⟩

theorem test_witness_StepKeepsStopCauseLegal :
    StopCauseInv { State.reset with stopCause := 6 } ∧ (after (step { State.reset with stopCause := 6 })).isSome = true := by
  refine ⟨?_, by decide⟩
  unfold StopCauseInv
  decide

theorem test_witness_StepKeepsBalance : BalanceInv midway ∧ (after (step midway)).isSome = true := by
  refine ⟨?_, by decide⟩
  unfold BalanceInv
  decide

theorem test_witness_EmittedIsPartOfScan :
    StreamInv decoded ∧ decoded.candValid = false ∧ decoded.acc.length < 34 := by
  refine ⟨⟨by decide, by decide⟩, by decide, by decide⟩

/-- The smallest and the unbounded parameters, after the same bytes, both with nothing left to scan or decode; and an
interleaving that feeds a byte and drains, with a POP between. -/
theorem test_witness_ParametersAndSchedulesDoNotChangeOutput :
    (StreamInv decoded ∧ StreamInv { decoded with params := vectorParams, outq := [] } ∧
      ingested decoded.hist = ingested ({ decoded with params := vectorParams, outq := [] } : State).hist ∧
      decoded.drained = true ∧ ({ decoded with params := vectorParams, outq := [] } : State).drained = true) ∧
    (withAcc (bytesF1.take 33)).candValid = false ∧
    ∃ t, Interleaved (.pop :: drainSteps) [0x8F]
      { withAcc (bytesF1.take 33) with params := smallest, outq := [sample2] } t ∧ t.drained = true := by
  refine ⟨⟨⟨by decide, by decide⟩, ⟨by decide, by decide⟩, by decide, by decide, by decide⟩, rfl, ?_⟩
  refine ⟨_, .input 0x8F (by decide) rfl (.work .scanExtract (by decide) (by decide) rfl
    (.work .pop (by decide) (by decide) rfl (.work .decOk (by decide) (by decide) rfl (.done (by decide))))), by decide⟩

/-- One byte sequence for each clause, at 33 and 34 bytes. -/
theorem test_witness_ScanEquation :
    (bytesF1.take 33).length < 34 ∧
    (34 ≤ bytesF1.length ∧ bytesF1.take 3 = [0xBD, 0xDB, 0x0A] ∧ xor8 (bytesF1.take 33) = bytesF1.getD 33 0) ∧
    (34 ≤ bytesF1x.length ∧ bytesF1x.take 3 = [0xBD, 0xDB, 0x0A] ∧ xor8 (bytesF1x.take 33) ≠ bytesF1x.getD 33 0) ∧
    (34 ≤ (List.replicate 34 (0 : Byte)).length ∧ (List.replicate 34 (0 : Byte)).take 3 ≠ [0xBD, 0xDB, 0x0A]) := by decide

theorem test_witness_ScanBasicFacts : (bytesF1.take 33).length < 34 := by decide

/-- P5: garbage without a marker. -/
theorem test_witness_GenuineFrameIsFoundIffVisited :
    ∀ p, p < [0x00, 0xFF, (0xBD : Byte)].length →
      marked ((([0x00, 0xFF, 0xBD] ++ frameBytes (validFrame sample1 0)) ++ []).drop p) = false := by decide

theorem test_witness_DrainReachesScan :
    (withAcc bytesF1).run = .running ∧ (withAcc bytesF1).params.qCap = none := by decide

end Sys2Proof.Tests
end

/-! ### Enabling conditions and held steps -/

namespace Sys2Proof.Machine

/-! What the flags of R32 and the enabling conditions of R89 say of the fields of the state. -/

@[simp] theorem State.running_iff (s : State) : s.running = true ↔ s.run = .running := by simp [State.running]

@[simp] theorem State.running_eq_false_iff (s : State) : s.running = false ↔ s.run = .stopped := by
  cases h : s.run <;> simp [State.running, h]

@[simp] theorem State.scanFree_iff (s : State) : s.scanFree = true ↔ s.run = .running ∧ s.candValid = false := by
  simp [State.scanFree]

@[simp] theorem State.hasWindow_iff (s : State) : s.hasWindow = true ↔ 34 ≤ s.acc.length := by simp [State.hasWindow]

@[simp] theorem State.outValid_eq_false_iff (s : State) : s.outValid = false ↔ s.outq = [] := by
  simp [State.outValid]

theorem State.canExtract_iff (s : State) :
    s.canExtract = true ↔
      s.run = .running ∧ s.candValid = false ∧ 34 ≤ s.acc.length ∧ marked s.acc = true := by
  simp [State.canExtract, and_assoc]

theorem State.canDiscard_iff (s : State) :
    s.canDiscard = true ↔
      s.run = .running ∧ s.candValid = false ∧ 34 ≤ s.acc.length ∧ marked s.acc = false := by
  simp [State.canDiscard, and_assoc]

theorem State.canDecOk_iff (s : State) :
    s.canDecOk = true ↔
      s.run = .running ∧ s.candValid = true ∧ checksumOk s.candBytes = true ∧ s.qFull = false := by
  simp [State.canDecOk, and_assoc]

theorem State.canDecBad_iff (s : State) :
    s.canDecBad = true ↔ s.run = .running ∧ s.candValid = true ∧ checksumOk s.candBytes = false := by
  simp [State.canDecBad, and_assoc]

/-- R116: the hold has no effect, whether or not its condition holds. -/
theorem exec_scanWait (s : State) : exec .scanWait s = .next s := rfl

theorem exec_pop_of_empty (s : State) (h : s.outq = []) : exec .pop s = .next s := by
  simp [exec, execPop, h]

/-- R11, R161: a level-H operation happens only when it is enabled. Not so at level O, where a
`decode` that is not enabled is refused. -/
theorem exec_of_not_enabled (i : Instr) (s : State) (hl : i.level = .levelH) (h : s.enabled i = false) :
    exec i s = .next s := by
  cases i with
  | portIngest | scanExtract | scanDiscard | decOk | decBad | stop | srcEndEos | srcEndReadFail =>
    exact if_neg (Bool.eq_false_iff.mp h)
  | startOk | startFail => exact if_pos (by simpa [State.enabled] using h)
  | scanWait => exact exec_scanWait s
  | pop => exact exec_pop_of_empty s (s.outValid_eq_false_iff.mp h)
  | reset => cases h
  | frame | ingest | tryExtractFrame | decode => cases hl

/-- Settles O34: for each operation the condition of R89 is the model's `enabled`, and `exec_of_not_enabled` does the
rest; SCAN_WAIT never has an effect. -/
theorem heldStepChangesNothing : Obligations.HeldStepChangesNothing := by
  intro i s h
  cases i with
  | portIngest => exact exec_of_not_enabled _ s rfl h
  | scanExtract => exact exec_of_not_enabled _ s rfl (Bool.eq_false_iff.mpr (mt s.canExtract_iff.mp h))
  | scanDiscard => exact exec_of_not_enabled _ s rfl (Bool.eq_false_iff.mpr (mt s.canDiscard_iff.mp h))
  | scanWait => exact exec_scanWait s
  | decOk => exact exec_of_not_enabled _ s rfl (Bool.eq_false_iff.mpr (mt s.canDecOk_iff.mp h))
  | decBad => exact exec_of_not_enabled _ s rfl (Bool.eq_false_iff.mpr (mt s.canDecBad_iff.mp h))
  | pop => exact exec_pop_of_empty s h
  | startOk | startFail => exact exec_of_not_enabled _ s rfl (by simpa [State.enabled] using h)
  | stop | srcEndEos | srcEndReadFail => exact exec_of_not_enabled _ s rfl (s.running_eq_false_iff.mpr h)
  | frame | ingest | tryExtractFrame | decode | reset => exact h.elim

end Sys2Proof.Machine

/-! ### What a step can do -/

namespace Sys2Proof.Machine

/-! #### Level H: one constructor per effect -/

/-- What a level-H operation does to the block: nothing, or the effect of one enabled operation (R89, R111 to R158). -/
inductive Effect (s : State) : State → Prop
  | hold : Effect s s
  | ingest (b : Byte) (h : s.inReady = true) : Effect s ((s.append b).record (.ingest b))
  | extract (h : s.canExtract = true) :
    Effect s { (s.record (.extract s.pos)).remove frameLen with cand := windowOf s.acc, candValid := true }
  | discard (h : s.canDiscard = true) : Effect s { s.discardHead with out := { s.out with evMarkerMismatch := true } }
  | decOk (h : s.canDecOk = true) :
    Effect s { (s.emit (sampleOf s.candBytes)).record (.frameOk s.candPos (sampleOf s.candBytes)) with
               candValid := false, nOk := s.nOk + 1, out := { s.out with evFrameOk := true } }
  | decBad (h : s.canDecBad = true) :
    Effect s { s.countCsumError.record (.csumBad s.candPos) with
               candValid := false, out := { s.out with evCsumMismatch := true } }
  | pop (smp : Sample) (rest : List Sample) (h : s.outq = smp :: rest) :
    Effect s { s.record (.pop smp) with outq := rest, out := { s.out with delivered := some smp } }
  | startOk (h : s.run = .stopped) :
    Effect s { s.record .startOk with run := .running, stopCause := Condition.code .none }
  | startFail (h : s.run = .stopped) :
    Effect s { s.record .openFail with
               stopCause := Condition.code .streamOpenFailure, out := { s.out with openFailure := true } }
  | stop (h : s.run = .running) : Effect s (s.halt .stopRequest .stop)
  | endOfStream (h : s.run = .running) : Effect s (s.halt .endOfStream (.srcEnd .eos))
  | readFailure (h : s.run = .running) : Effect s (s.halt .streamReadFailure (.srcEnd .readFail))
  | reset : Effect s { State.resetWith s.params with ports := s.ports, inputs := s.inputs, freeIx := s.freeIx }

theorem exec_pop_of_cons (s : State) (smp : Sample) (rest : List Sample) (h : s.outq = smp :: rest) :
    exec .pop s = .next { s.record (.pop smp) with outq := rest, out := { s.out with delivered := some smp } } := by
  simp [exec, execPop, h]

/-- An enabled operation has its effect; one that is not enabled has none (`exec_of_not_enabled`). -/
theorem exec_effect (i : Instr) (s : State) (hl : i.level = .levelH) : ∃ t, exec i s = .next t ∧ Effect s t := by
  cases he : s.enabled i with
  | false => exact ⟨s, exec_of_not_enabled i s hl he, .hold⟩
  | true =>
    cases i with
    | portIngest b => exact ⟨_, if_pos he, .ingest b he⟩
    | scanExtract => exact ⟨_, if_pos he, .extract he⟩
    | scanDiscard => exact ⟨_, if_pos he, .discard he⟩
    | scanWait => exact ⟨s, exec_scanWait s, .hold⟩
    | decOk => exact ⟨_, if_pos he, .decOk he⟩
    | decBad => exact ⟨_, if_pos he, .decBad he⟩
    | pop =>
      cases hq : s.outq with
      | nil => exact ⟨s, exec_pop_of_empty s hq, .hold⟩
      | cons smp rest => exact ⟨_, exec_pop_of_cons s smp rest hq, .pop smp rest hq⟩
    | startOk =>
      have hr : s.run = .stopped := by simpa [State.enabled] using he
      exact ⟨_, if_neg (by simp [hr]), .startOk hr⟩
    | startFail =>
      have hr : s.run = .stopped := by simpa [State.enabled] using he
      exact ⟨_, if_neg (by simp [hr]), .startFail hr⟩
    | stop => exact ⟨_, if_pos he, .stop (s.running_iff.mp he)⟩
    | srcEndEos => exact ⟨_, if_pos he, .endOfStream (s.running_iff.mp he)⟩
    | srcEndReadFail => exact ⟨_, if_pos he, .readFailure (s.running_iff.mp he)⟩
    | reset => exact ⟨_, rfl, .reset⟩
    | frame | ingest | tryExtractFrame | decode => cases hl

theorem Effect.of_exec {i : Instr} {s t : State} (hl : i.level = .levelH) (h : exec i s = .next t) : Effect s t := by
  obtain ⟨u, hu, he⟩ := exec_effect i s hl
  rw [hu] at h
  cases h
  exact he

theorem Effect.inputs_eq {s t : State} (h : Effect s t) : t.inputs = s.inputs := by
  cases h <;> rfl

/-! #### Level O: the basic operations of a call -/

/-- The basic operations of the level-O calls (R110, R112, R130, R160). -/
inductive CallOp (s : State) : State → Prop
  | ingest (bytes : List Byte) : CallOp s (s.ingestAll bytes)
  | discard (h : s.hasWindow = true) : CallOp s s.discardHead
  | takeFrame (h : s.hasWindow = true) : CallOp s s.takeFrame
  | noFrame : CallOp s { s with reply := .noFrame }
  | decode (p : Nat) (bytes : List Byte) : CallOp s (s.decodeAt p bytes)
  | emit (smp : Sample) : CallOp s (s.emit smp)
  | freeValue : CallOp s { s with freeIx := s.freeIx + 1 }

/-- What a level-O call does to the block: basic operations, one after the other. -/
abbrev CallEffect : State → State → Prop := Relation.ReflTransGen CallOp

theorem tryExtractLoop_callEffect (fuel : Nat) (s : State) : CallEffect s (tryExtractLoop fuel s) := by
  induction fuel generalizing s with
  | zero => exact .single .noFrame
  | succ fuel ih =>
    unfold tryExtractLoop
    split
    case isTrue hw =>
      split
      · exact .single (.takeFrame hw)
      · exact .head (.discard hw) (ih s.discardHead)
    case isFalse => exact .single .noFrame

theorem tryExtract_callEffect (s : State) : CallEffect s s.tryExtract := tryExtractLoop_callEffect _ s

theorem deliverReply_callEffect (s : State) : CallEffect s s.deliverReply := by
  unfold State.deliverReply
  split
  · exact .single (.emit _)
  · exact .refl

theorem pumpLoop_callEffect (fuel : Nat) (s : State) : CallEffect s (pumpLoop fuel s) := by
  induction fuel generalizing s with
  | zero => exact .refl
  | succ fuel ih =>
    unfold pumpLoop
    split
    · exact (((tryExtract_callEffect s).tail (.decode _ _)).trans (deliverReply_callEffect _)).trans (ih _)
    · exact tryExtract_callEffect s

theorem pump_callEffect (s : State) (bytes : List Byte) : CallEffect s (s.pump bytes) :=
  .head (.ingest bytes) (pumpLoop_callEffect _ _)

theorem decodeAt_freeIx (s : State) (p : Nat) (bytes : List Byte) : (s.decodeAt p bytes).freeIx = s.freeIx := by
  unfold State.decodeAt
  dsimp only
  split <;> rfl

theorem decodeBytes_callEffect (s : State) (bytes : List Byte) : CallEffect s (s.decodeBytes bytes) := by
  have hd : CallEffect s (s.decodeAt (s.offsetOf bytes) bytes) := .single (.decode _ bytes)
  unfold State.decodeBytes
  rw [← decodeAt_freeIx s (s.offsetOf bytes) bytes]
  exact hd.tail .freeValue

theorem CallEffect.of_exec {i : Instr} {s t : State} (hl : i.level ≠ .levelH) (h : exec i s = .next t) :
    CallEffect s t := by
  cases i with
  | frame f =>
    cases h
    exact pump_callEffect s (frameBytes f)
  | ingest bytes =>
    cases h
    exact .single (.ingest bytes)
  | tryExtractFrame =>
    cases h
    exact tryExtract_callEffect s
  | decode bytes =>
    simp only [exec, execDecode] at h
    split at h
    · cases h
      exact decodeBytes_callEffect s bytes
    · cases h
  | _ => exact absurd rfl hl

/-! #### What a fetch gives -/

theorem agentInstr_levelH {s : State} {a : Agent} {i : Instr} (h : agentInstr s a = some i) : i.level = .levelH := by
  have work : ∀ i ∈ drainSteps, i.level = .levelH := by decide
  cases a with
  | src =>
    simp only [agentInstr, inputInstr, Option.ite_none_right_eq_some, Option.some.injEq] at h
    exact h.2 ▸ rfl
  | sync => exact work i (windowInstr_of_canScan s i h).1
  | dec => exact work i (candidateInstr_of_canDecode s i h).1
  | sink =>
    simp only [agentInstr, outputInstr, Option.ite_none_right_eq_some, Option.some.injEq] at h
    exact h.2 ▸ rfl
  | ctrl => cases h

theorem firstMove_levelH {s : State} {agents rest : List Agent} {i : Instr}
    (h : firstMove s agents = some (i, rest)) : i.level = .levelH := by
  obtain ⟨a, -, ha⟩ := firstMove_some s agents i rest h
  exact agentInstr_levelH ha

theorem controlInstr_levelH {v : PortView} {i : Instr} (h : controlInstr v = some i) : i.level = .levelH := by
  unfold controlInstr at h
  split_ifs at h <;> cases h <;> rfl

theorem takeTurn_levelH {s : State} {agents : List Agent} {i : Instr} (h : (takeTurn s agents).1 = some i) :
    i.level = .levelH := by
  unfold takeTurn at h
  split at h
  case h_1 j rest hm =>
    cases h
    exact firstMove_levelH hm
  case h_2 =>
    split at h
    · cases h
    · cases h
      rfl

theorem beginCycle_levelH {s : State} {ports : Ports} {order : List Agent} {i : Instr}
    (h : (beginCycle s ports order).1 = some i) : i.level = .levelH := by
  unfold beginCycle at h
  dsimp only at h
  split at h
  case h_1 j hc =>
    cases h
    exact controlInstr_levelH hc
  case h_2 => exact takeTurn_levelH h

/-- Only a level-O call of the script makes a step that is not of level H. -/
theorem fetch_levelH {s : State} {i : Instr} (hs : s.levelHOnly = true) (h : (fetch s).1 = some i) :
    i.level = .levelH := by
  unfold fetch at h
  split at h
  case h_1 j rest hm =>
    cases h
    exact firstMove_levelH hm
  case h_2 =>
    split at h
    · exact beginCycle_levelH h
    case h_2 c later hi => simp [State.levelHOnly, hi] at hs
    · exact beginCycle_levelH h

theorem takeTurn_inputs (s : State) (agents : List Agent) : (takeTurn s agents).2.inputs = s.inputs := by
  unfold takeTurn
  split <;> rfl

theorem beginCycle_inputs (s : State) (ports : Ports) (order : List Agent) :
    (beginCycle s ports order).2.inputs = s.inputs := by
  unfold beginCycle
  dsimp only
  split
  · rfl
  · exact takeTurn_inputs _ _

theorem fetch_inputs_suffix (s : State) : (fetch s).2.inputs <:+ s.inputs := by
  unfold fetch
  split
  · exact List.suffix_rfl
  · split
    case h_1 later hi => simp [beginCycle_inputs, hi]
    case h_2 later hi => simp [hi]
    case h_3 => simp [beginCycle_inputs]

theorem levelHOnly_of_suffix {s t : State} (h : t.inputs <:+ s.inputs) (hs : s.levelHOnly = true) :
    t.levelHOnly = true := by
  simp only [State.levelHOnly, List.all_eq_true] at hs ⊢
  exact fun x hx => hs x (h.subset hx)

/-! #### The inversion of a step -/

/-- R11, R222: a step of a script without calls is one level-H effect, in the clock cycle that the fetch found. -/
theorem step_effect {s t : State} (hs : s.levelHOnly = true) (h : step s = .next t) :
    ∃ u, SameBlock s u ∧ u.levelHOnly = true ∧ Effect u t := by
  refine ⟨(fetch s).2, fetch_same s, levelHOnly_of_suffix (fetch_inputs_suffix s) hs, ?_⟩
  obtain ⟨i, hi, he⟩ | ⟨-, rfl⟩ := step_cases s t h
  · exact .of_exec (fetch_levelH hs hi) he
  · exact .hold

/-- R11, R222: any step is one level-H effect or one level-O call. -/
theorem step_effect_or_call {s t : State} (h : step s = .next t) :
    ∃ u, SameBlock s u ∧ (Effect u t ∨ CallEffect u t) := by
  refine ⟨(fetch s).2, fetch_same s, ?_⟩
  obtain ⟨i, -, he⟩ | ⟨-, rfl⟩ := step_cases s t h
  · by_cases hl : i.level = .levelH
    · exact .inl (.of_exec hl he)
    · exact .inr (.of_exec hl he)
  · exact .inl .hold

theorem step_levelHOnly {s t : State} (hs : s.levelHOnly = true) (h : step s = .next t) : t.levelHOnly = true := by
  obtain ⟨u, -, hu, he⟩ := step_effect hs h
  exact levelHOnly_of_suffix (he.inputs_eq ▸ List.suffix_rfl) hu

/-- An invariant of level H: it does not depend on the clock cycle, and every effect keeps it. -/
theorem step_keeps_of_effect {P : State → Prop} (hsame : ∀ {s t}, SameBlock s t → P s → P t)
    (heff : ∀ {s t}, Effect s t → P s → P t) {s t : State} (hs : s.levelHOnly = true) (hp : P s)
    (h : step s = .next t) : P t := by
  obtain ⟨u, hu, -, he⟩ := step_effect hs h
  exact heff he (hsame hu hp)

theorem CallEffect.keeps {P : State → Prop} (hcall : ∀ {s t}, CallOp s t → P s → P t) {s t : State}
    (h : CallEffect s t) (hp : P s) : P t := by
  induction h with
  | refl => exact hp
  | tail _ hop ih => exact hcall hop ih

/-- An invariant of both levels: the basic operations of the calls keep it as well. -/
theorem step_keeps_of_effect_of_callOp {P : State → Prop} (hsame : ∀ {s t}, SameBlock s t → P s → P t)
    (heff : ∀ {s t}, Effect s t → P s → P t) (hcall : ∀ {s t}, CallOp s t → P s → P t) {s t : State} (hp : P s)
    (h : step s = .next t) : P t := by
  obtain ⟨u, hu, he | hc⟩ := step_effect_or_call h
  · exact heff he (hsame hu hp)
  · exact hc.keeps hcall (hsame hu hp)

end Sys2Proof.Machine

/-! ### What holds at reset and is kept by every step -/

namespace Sys2Proof.Machine

/-! #### R34(b), R34(e): the byte balance and the saturating counter -/

theorem balanceInv_resetWith (p : Params) : BalanceInv (State.resetWith p) := ⟨rfl, (Nat.zero_min _).symm⟩

theorem BalanceInv.sameBlock {s t : State} (h : SameBlock s t) (hs : BalanceInv s) : BalanceInv t := by
  rw [h]
  exact hs

theorem BalanceInv.ingestAll {s : State} (hs : BalanceInv s) (bytes : List Byte) : BalanceInv (s.ingestAll bytes) :=
  ⟨by simp [hs.1, Nat.add_assoc], hs.2⟩

theorem BalanceInv.append {s : State} (hs : BalanceInv s) (b : Byte) : BalanceInv (s.append b) := hs.ingestAll [b]

/-- What leaves the accumulator moves the scan position. -/
theorem BalanceInv.remove {s : State} (hs : BalanceInv s) {n : Nat} (hn : n ≤ s.acc.length) :
    BalanceInv (s.remove n) := by
  obtain ⟨hin, herr⟩ := hs
  exact ⟨by simp; omega, herr⟩

/-- The saturated counter stays the minimum of the exact one and its bound. -/
theorem BalanceInv.countCsumError {s : State} (hs : BalanceInv s) : BalanceInv s.countCsumError := by
  obtain ⟨hin, herr⟩ := hs
  exact ⟨hin, by simp; omega⟩

theorem BalanceInv.discardHead {s : State} (hs : BalanceInv s) (hw : 34 ≤ s.acc.length) : BalanceInv s.discardHead :=
  hs.remove (n := 1) (by omega)

theorem BalanceInv.effect {s t : State} (h : Effect s t) (hs : BalanceInv s) : BalanceInv t := by
  cases h with
  | ingest b => exact hs.append b
  | extract hc =>
    obtain ⟨-, -, hw, -⟩ := s.canExtract_iff.mp hc
    exact hs.remove hw
  | discard hc =>
    obtain ⟨-, -, hw, -⟩ := s.canDiscard_iff.mp hc
    exact hs.discardHead hw
  | decBad => exact hs.countCsumError
  | reset => exact balanceInv_resetWith s.params
  | hold | decOk | pop | startOk | startFail | stop | endOfStream | readFailure => exact hs

theorem BalanceInv.decodeAt {s : State} (hs : BalanceInv s) (p : Nat) (bytes : List Byte) :
    BalanceInv (s.decodeAt p bytes) := by
  cases hc : checksumOk bytes with
  | true =>
    rw [decodeAt_of_valid s p bytes hc]
    exact hs
  | false =>
    rw [decodeAt_of_bad s p bytes hc]
    exact hs.countCsumError

theorem BalanceInv.callOp {s t : State} (h : CallOp s t) (hs : BalanceInv s) : BalanceInv t := by
  cases h with
  | ingest bytes => exact hs.ingestAll bytes
  | discard hw => exact hs.discardHead (s.hasWindow_iff.mp hw)
  | takeFrame hw => exact hs.remove (s.hasWindow_iff.mp hw)
  | decode p bytes => exact hs.decodeAt p bytes
  | noFrame | emit | freeValue => exact hs

/-- Settles O52: effects of level H and basic operations of level O keep `BalanceInv`. -/
theorem stepKeepsBalance : Obligations.StepKeepsBalance := fun _ _ hs h =>
  step_keeps_of_effect_of_callOp BalanceInv.sameBlock BalanceInv.effect BalanceInv.callOp hs h

/-! #### R34: the state invariants -/

@[simp] theorem State.record_candBytes (s : State) (e : Event) : (s.record e).candBytes = s.candBytes := rfl
@[simp] theorem State.append_candBytes (s : State) (b : Byte) : (s.append b).candBytes = s.candBytes := rfl

@[simp] theorem ingested_ingest (b : Byte) : ingested [.ingest b] = [b] := rfl
@[simp] theorem popped_ingest (b : Byte) : popped [.ingest b] = [] := rfl
@[simp] theorem ingested_pop (smp : Sample) : ingested [.pop smp] = [] := rfl
@[simp] theorem popped_pop (smp : Sample) : popped [.pop smp] = [smp] := rfl

theorem stateInv_resetWith (p : Params) : StateInv (State.resetWith p) where
  accFits := resetWith_memory_wf p
  queueFits := fun c _ => Nat.zero_le c
  bytesIn := rfl
  posBalance := rfl
  candMarked := nofun
  errCount := (Nat.zero_min _).symm
  popCount := ⟨rfl, le_rfl⟩
  accIsStream := ⟨rfl, rfl⟩
  candIsStream := nofun

theorem StateInv.sameBlock {s t : State} (h : SameBlock s t) (hs : StateInv s) : StateInv t := by
  rw [h]
  exact { hs with }

theorem StateInv.balance {s : State} (hs : StateInv s) : BalanceInv s := ⟨hs.bytesIn, hs.errCount⟩

theorem StateInv.pos_le {s : State} (hs : StateInv s) : s.pos ≤ (ingested s.hist).length := by
  have hin := hs.bytesIn
  have hlen := hs.accIsStream.1
  omega

theorem StateInv.frameLen_le_pos {s : State} (hs : StateInv s) (hv : s.candValid = true) : 34 ≤ s.pos := by
  have hbal := hs.posBalance
  simp [hv] at hbal
  omega

/-- R34 reads only the bytes ingested and the samples popped from the history. -/
theorem StateInv.record {s : State} (hs : StateInv s) (e : Event) (hi : ingested [e] = []) (hp : popped [e] = []) :
    StateInv (s.record e) :=
  { hs with
    popCount := by simpa [hp] using hs.popCount
    accIsStream := by simpa [hi] using hs.accIsStream
    candIsStream := by simpa [hi] using hs.candIsStream }

theorem drop_take_append_of_le {α : Type} (a b : List α) {p n : Nat} (h : p + n ≤ a.length) :
    ((a ++ b).drop p).take n = (a.drop p).take n := by
  rw [List.drop_append_of_le_length (by omega), List.take_append_of_le_length (by simp; omega)]

/-- A byte at the end of the stream moves neither the start of the accumulator nor the place of the candidate. -/
theorem StateInv.ingest {s : State} (hs : StateInv s) (b : Byte) (hr : s.inReady = true) :
    StateInv ((s.append b).record (.ingest b)) := by
  have hpos := hs.pos_le
  obtain ⟨hlen, hacc⟩ := hs.accIsStream
  exact { hs with
    accFits := append_memory_wf s b hr
    bytesIn := (hs.balance.append b).1
    popCount := by simpa using hs.popCount
    accIsStream := by simp [hlen, List.drop_append_of_le_length hpos, ← hacc]
    candIsStream := fun hv => by
      have h34 := hs.frameLen_le_pos hv
      have hfit : s.pos - 34 + 34 ≤ (ingested s.hist).length := by omega
      simpa [drop_take_append_of_le _ _ hfit] using hs.candIsStream hv }

theorem StateInv.extract {s : State} (hs : StateInv s) (hc : s.canExtract = true) :
    StateInv { (s.record (.extract s.pos)).remove frameLen with cand := windowOf s.acc, candValid := true } := by
  obtain ⟨-, hv, hw, hm⟩ := s.canExtract_iff.mp hc
  have hcand : (windowOf s.acc).toList = s.acc.take 34 := windowOf_toList s.acc hw
  have hr := hs.record (.extract s.pos) rfl rfl
  obtain ⟨hlen, hacc⟩ := hr.accIsStream
  exact { hr with
    accFits := remove_memory_wf _ _ hr.accFits
    bytesIn := (hs.balance.remove hw).1
    posBalance := by
      have := hs.posBalance
      simp [hv] at this ⊢
      omega
    candMarked := fun _ => by simp [State.candBytes, hcand, marked_take, hm]
    accIsStream := ⟨hlen, by simpa using congrArg (List.drop 34) hacc⟩
    candIsStream := fun _ => by simpa [State.candBytes, hcand] using congrArg (List.take 34) hacc }

theorem StateInv.discard {s : State} (hs : StateInv s) (hc : s.canDiscard = true) : StateInv s.discardHead := by
  obtain ⟨-, hv, hw, -⟩ := s.canDiscard_iff.mp hc
  have hr := hs.record (.discard s.pos) rfl rfl
  obtain ⟨hlen, hacc⟩ := hr.accIsStream
  exact { hr with
    accFits := remove_memory_wf _ _ hr.accFits
    bytesIn := (hs.balance.discardHead hw).1
    posBalance := by
      have := hs.posBalance
      simp [hv] at this ⊢
      omega
    accIsStream := ⟨hlen, by simpa using congrArg (List.drop 1) hacc⟩
    candIsStream := fun hv' => by simp [hv] at hv' }

theorem StateInv.decOk {s : State} (hs : StateInv s) (hc : s.canDecOk = true) (smp : Sample) :
    StateInv { (s.emit smp).record (.frameOk s.candPos smp) with candValid := false, nOk := s.nOk + 1 } := by
  obtain ⟨-, hv, -, hq⟩ := s.canDecOk_iff.mp hc
  have hroom : hasRoom s.params.qCap s.outq.length = true := by simpa [State.qFull] using hq
  have hr := hs.record (.frameOk s.candPos smp) rfl rfl
  exact { hr with
    queueFits := fun c h => by simpa using (hasRoom_iff _ _).mp hroom c h
    posBalance := by
      have := hs.posBalance
      simp [hv] at this ⊢
      omega
    candMarked := nofun
    popCount := by
      have := hr.popCount
      simp at this ⊢
      omega
    candIsStream := nofun }

theorem StateInv.decBad {s : State} (hs : StateInv s) (hc : s.canDecBad = true) :
    StateInv { s.countCsumError.record (.csumBad s.candPos) with candValid := false } := by
  obtain ⟨-, hv, -⟩ := s.canDecBad_iff.mp hc
  exact { hs.record (.csumBad s.candPos) rfl rfl with
    posBalance := by
      have := hs.posBalance
      simp [hv] at this ⊢
      omega
    candMarked := nofun
    errCount := hs.balance.countCsumError.2
    candIsStream := nofun }

theorem StateInv.pop {s : State} (hs : StateInv s) (smp : Sample) (rest : List Sample) (hq : s.outq = smp :: rest) :
    StateInv { s.record (.pop smp) with outq := rest } := by
  obtain ⟨hpop, hle⟩ := hs.popCount
  have hlen : s.outq.length = rest.length + 1 := by simp [hq]
  exact { hs with
    queueFits := fun c h => by
      have := hs.queueFits c h
      dsimp only
      omega
    popCount := by
      simp [hpop]
      omega
    accIsStream := by simpa using hs.accIsStream
    candIsStream := by simpa [State.candBytes] using hs.candIsStream }

/-- R34: every effect of level H keeps the state invariants; control events do not touch what they speak of. -/
theorem StateInv.effect {s t : State} (h : Effect s t) (hs : StateInv s) : StateInv t := by
  cases h with
  | hold => exact hs
  | ingest b hr => exact hs.ingest b hr
  | extract hc => exact hs.extract hc
  | discard hc => exact { hs.discard hc with }
  | decOk hc => exact { hs.decOk hc (sampleOf s.candBytes) with }
  | decBad hc => exact { hs.decBad hc with }
  | pop smp rest hq => exact { hs.pop smp rest hq with }
  | startOk => exact { hs.record .startOk rfl rfl with }
  | startFail => exact { hs.record .openFail rfl rfl with }
  | stop => exact { hs.record .stop rfl rfl with }
  | endOfStream => exact { hs.record (.srcEnd .eos) rfl rfl with }
  | readFailure => exact { hs.record (.srcEnd .readFail) rfl rfl with }
  | reset => exact { stateInv_resetWith s.params with }

/-- Settles O47: `StateInv` does not depend on the clock cycle and every effect keeps it. -/
theorem stepKeepsStateInvariants : Obligations.StepKeepsStateInvariants := fun _ _ hl hs h =>
  ⟨step_levelHOnly hl h, step_keeps_of_effect StateInv.sameBlock StateInv.effect hl hs h⟩

/-! #### R28: the event counts -/

/-- R28: what `n_disc` counts. -/
def Event.isDiscard : Event → Bool
  | .discard _ => true
  | _ => false

/-- R28: what `n_bad` counts. -/
def Event.isCsumBad : Event → Bool
  | .csumBad _ => true
  | _ => false

/-- R28, with the events that are counted named. -/
theorem countInv_iff (s : State) :
    CountInv s ↔
      s.nIn = (ingested s.hist).length ∧ s.nDisc = s.hist.countP Event.isDiscard ∧
      s.nOk = (emitted s.hist).length ∧ s.nBad = s.hist.countP Event.isCsumBad :=
  ⟨fun ⟨hin, hdisc, hok, hbad⟩ => ⟨hin, hdisc, hok, hbad⟩, fun ⟨hin, hdisc, hok, hbad⟩ => ⟨hin, hdisc, hok, hbad⟩⟩

theorem countInv_resetWith (p : Params) : CountInv (State.resetWith p) := ⟨rfl, rfl, rfl, rfl⟩

theorem CountInv.sameBlock {s t : State} (h : SameBlock s t) (hs : CountInv s) : CountInv t := by
  rw [h]
  exact { hs with }

/-- One more event, with each counter raised by what the event counts for. -/
theorem CountInv.snoc {s t : State} (hs : CountInv s) (e : Event) (hh : t.hist = s.hist ++ [e])
    (hin : t.nIn = s.nIn + (ingested [e]).length) (hdisc : t.nDisc = s.nDisc + e.isDiscard.toNat)
    (hok : t.nOk = s.nOk + (emitted [e]).length) (hbad : t.nBad = s.nBad + e.isCsumBad.toNat) : CountInv t := by
  have countP_single (p : Event → Bool) : [e].countP p = (p e).toNat := by cases hp : p e <;> simp [hp]
  obtain ⟨h₁, h₂, h₃, h₄⟩ := (countInv_iff s).mp hs
  rw [countInv_iff, hh, hin, hdisc, hok, hbad, h₁, h₂, h₃, h₄]
  simp [countP_single]

theorem CountInv.effect {s t : State} (h : Effect s t) (hs : CountInv s) : CountInv t := by
  cases h with
  | hold => exact hs
  | ingest b => exact hs.snoc (.ingest b) rfl rfl rfl rfl rfl
  | extract => exact hs.snoc (.extract s.pos) rfl rfl rfl rfl rfl
  | discard => exact hs.snoc (.discard s.pos) rfl rfl rfl rfl rfl
  | decOk => exact hs.snoc (.frameOk s.candPos (sampleOf s.candBytes)) rfl rfl rfl rfl rfl
  | decBad => exact hs.snoc (.csumBad s.candPos) rfl rfl rfl rfl rfl
  | pop smp => exact hs.snoc (.pop smp) rfl rfl rfl rfl rfl
  | startOk => exact hs.snoc .startOk rfl rfl rfl rfl rfl
  | startFail => exact hs.snoc .openFail rfl rfl rfl rfl rfl
  | stop => exact hs.snoc .stop rfl rfl rfl rfl rfl
  | endOfStream => exact hs.snoc (.srcEnd .eos) rfl rfl rfl rfl rfl
  | readFailure => exact hs.snoc (.srcEnd .readFail) rfl rfl rfl rfl rfl
  | reset => exact { countInv_resetWith s.params with }

/-- Settles O50: every effect records one event and raises the counter of that event. -/
theorem stepKeepsEventCounts : Obligations.StepKeepsEventCounts := fun _ _ hl hs h =>
  step_keeps_of_effect CountInv.sameBlock CountInv.effect hl hs h

/-! #### R31: the stop cause -/

theorem stopCauseInv_resetWith (p : Params) : StopCauseInv (State.resetWith p) := ⟨by simp [State.resetWith], nofun⟩

theorem StopCauseInv.sameBlock {s t : State} (h : SameBlock s t) (hs : StopCauseInv s) : StopCauseInv t := by
  rw [h]
  exact hs

/-- R211: only the two conditions that stop nothing have a code that is no stop cause. -/
theorem Condition.code_mem_of_ne (c : Condition) (hm : c ≠ .markerMismatch) (hk : c ≠ .checksumMismatch) :
    c.code ∈ [0, 3, 4, 5, 6].map (BitVec.ofNat 3) := by
  cases c with
  | markerMismatch => exact absurd rfl hm
  | checksumMismatch => exact absurd rfl hk
  | none | streamOpenFailure | streamReadFailure | endOfStream | stopRequest => decide

theorem StopCauseInv.effect {s t : State} (h : Effect s t) (hs : StopCauseInv s) : StopCauseInv t := by
  cases h with
  | startOk => exact ⟨Condition.code_mem_of_ne .none nofun nofun, fun _ => rfl⟩
  | startFail hr => exact ⟨Condition.code_mem_of_ne .streamOpenFailure nofun nofun, fun h => by simp [hr] at h⟩
  | stop => exact ⟨Condition.code_mem_of_ne .stopRequest nofun nofun, nofun⟩
  | endOfStream => exact ⟨Condition.code_mem_of_ne .endOfStream nofun nofun, nofun⟩
  | readFailure => exact ⟨Condition.code_mem_of_ne .streamReadFailure nofun nofun, nofun⟩
  | reset => exact stopCauseInv_resetWith s.params
  | hold | ingest | extract | discard | decOk | decBad | pop => exact hs

/-- Level O knows no run state (log entry 6). -/
theorem CallOp.run_stopCause {s t : State} (h : CallOp s t) : t.run = s.run ∧ t.stopCause = s.stopCause := by
  cases h with
  | decode p bytes => cases hc : checksumOk bytes <;> simp [decodeAt_of_valid, decodeAt_of_bad, hc]
  | ingest | discard | takeFrame | noFrame | emit | freeValue => exact ⟨rfl, rfl⟩

theorem StopCauseInv.callOp {s t : State} (h : CallOp s t) (hs : StopCauseInv s) : StopCauseInv t := by
  obtain ⟨hr, hc⟩ := h.run_stopCause
  rwa [StopCauseInv, hr, hc]

/-- Settles O51: only control effects write `run` and `stop_cause`, each a legal pair. -/
theorem stepKeepsStopCauseLegal : Obligations.StepKeepsStopCauseLegal := fun _ _ hs h =>
  step_keeps_of_effect_of_callOp StopCauseInv.sameBlock StopCauseInv.effect StopCauseInv.callOp hs h

/-! #### R40, R240: reset -/

theorem streamInv_resetWith (p : Params) : StreamInv (State.resetWith p) := ⟨rfl, rfl⟩

theorem fifoInv_resetWith (p : Params) : FifoInv (State.resetWith p) := rfl

theorem agentInstr_resetWith (p : Params) (a : Agent) : agentInstr (State.resetWith p) a = none := by
  cases a <;> rfl

theorem eq_resetWith {s : State} (h : s = State.reset ∨ ∃ p, s = State.resetWith p) : ∃ p, s = State.resetWith p :=
  h.elim (fun h => ⟨_, h⟩) id

/-- Settles O46: the base case of each invariant. -/
theorem resetMeetsInvariants : Obligations.ResetMeetsInvariants := by
  intro s h
  obtain ⟨p, rfl⟩ := eq_resetWith h
  exact ⟨rfl, stateInv_resetWith p, streamInv_resetWith p, fifoInv_resetWith p, countInv_resetWith p,
    stopCauseInv_resetWith p, balanceInv_resetWith p⟩

/-- Settles O32: the fields as `State.resetWith` gives them; a stopped block with an empty queue offers no agent a step. -/
theorem resetStateValues : Obligations.ResetStateValues := by
  intro s h
  obtain ⟨p, rfl⟩ := eq_resetWith h
  exact ⟨rfl, rfl, rfl, rfl, rfl, rfl, rfl, rfl, rfl, rfl, rfl, rfl, rfl, rfl, rfl, rfl, rfl, rfl, rfl,
    agentInstr_resetWith p⟩

end Sys2Proof.Machine

/-! ### The ports -/

namespace Sys2Proof.Machine

/-! #### R38: `out_data` -/

/-- A slice that begins above the low part of an append is a slice of the high part. -/
theorem extractLsb'_append_add {v w : Nat} (x : BitVec v) (y : BitVec w) (start len : Nat) :
    (x ++ y).extractLsb' (w + start) len = x.extractLsb' start len := by
  simp [BitVec.extractLsb'_append_eq_of_le]

theorem packSample_slices (smp : Sample) :
    (packSample smp).extractLsb' 0 32 = smp.gx ∧ (packSample smp).extractLsb' 32 32 = smp.gy ∧
    (packSample smp).extractLsb' 64 32 = smp.gz ∧ (packSample smp).extractLsb' 96 32 = smp.ax ∧
    (packSample smp).extractLsb' 128 32 = smp.ay ∧ (packSample smp).extractLsb' 160 32 = smp.az := by
  have above_gx (k : Nat) : (packSample smp).extractLsb' (32 + k) 32 =
      (smp.az ++ smp.ay ++ smp.ax ++ smp.gz ++ smp.gy).extractLsb' k 32 := extractLsb'_append_add _ smp.gx k 32
  have above_gy (k : Nat) := (above_gx (32 + k)).trans (extractLsb'_append_add _ smp.gy k 32)
  have above_gz (k : Nat) := (above_gy (32 + k)).trans (extractLsb'_append_add _ smp.gz k 32)
  have above_ax (k : Nat) := (above_gz (32 + k)).trans (extractLsb'_append_add _ smp.ax k 32)
  have above_ay (k : Nat) := (above_ax (32 + k)).trans (extractLsb'_append_add smp.az smp.ay k 32)
  exact ⟨BitVec.extractLsb'_append_eq_right, (above_gx 0).trans BitVec.extractLsb'_append_eq_right,
    (above_gy 0).trans BitVec.extractLsb'_append_eq_right, (above_gz 0).trans BitVec.extractLsb'_append_eq_right,
    (above_ax 0).trans BitVec.extractLsb'_append_eq_right, (above_ay 0).trans BitVec.extractLsb'_eq_self⟩
theorem outData_of_cons (s : State) (smp : Sample) (rest : List Sample) (h : s.outq = smp :: rest) :
    s.outData = packSample smp := by
  simp [State.outData, h]

/-- Settles O38: the front sample is packed word by word. -/
theorem outDataShowsFront : Obligations.OutDataShowsFront := by
  intro s smp rest h
  rw [outData_of_cons s smp rest h]
  exact ⟨by simp [State.outValid, h], packSample_slices smp⟩

/-! #### R215: a clock cycle without a control event -/

/-- The block at the start of a clock cycle, before any agent has moved. -/
def State.openCycle (s : State) (ports : Ports) (later : List Input) : State :=
  { s with turns := [], inputs := later, ports := ports, out := {}, freeIx := s.freeIx + 1 }

/-- No control event is asserted at the ports. -/
def QuietPorts (p : Ports) : Prop := p.rst = false ∧ p.stop = false ∧ p.srcEnd = false ∧ p.start = false

theorem controlInstr_of_quiet (v : PortView) (h : QuietPorts v.ports) : controlInstr v = none := by
  obtain ⟨hrst, hstop, hend, hstart⟩ := h
  simp [controlInstr, hrst, hstop, hend, hstart]

section
variable {s : State} {ports : Ports} {order : List Agent} {later : List Input}

theorem fetch_of_cycle (ht : s.turns = []) (hi : s.inputs = .cycle ports order :: later) :
    fetch s = beginCycle { s with turns := [], inputs := later } ports order := by
  simp [fetch, ht, hi, firstMove]

theorem fetch_of_quiet (ht : s.turns = []) (hi : s.inputs = .cycle ports order :: later) (hq : QuietPorts ports) :
    fetch s = takeTurn (s.openCycle ports later) (cycleTurns (s.openCycle ports later) order) := by
  have hc : controlInstr (s.openCycle ports later).view = none := controlInstr_of_quiet _ hq
  rw [fetch_of_cycle ht hi, beginCycle]
  exact hc ▸ rfl

end

/-- An agent's turn runs its operation. -/
theorem step_of_move {s u : State} {agents rest : List Agent} {i : Instr} (hf : fetch s = takeTurn u agents)
    (hm : firstMove u agents = some (i, rest)) : step s = exec i { u with turns := rest } := by
  simp [step, hf, takeTurn, hm]

/-- R116: when no agent can move, the block holds, whether or not the hold is a SCAN_WAIT. -/
theorem step_of_no_move {s u : State} {agents : List Agent} (hf : fetch s = takeTurn u agents)
    (hm : firstMove u agents = none) : step s = .next { u with turns := [] } := by
  cases hw : u.hasWindow <;> simp [step, hf, takeTurn, hm, hw, exec_scanWait]

/-! #### R37, R38: the handshakes of a cycle in which only SRC or SINK can move -/

theorem agentInstr_src_of_ready {s : State} (hv : s.ports.inValid = true) (hr : s.inReady = true) :
    agentInstr s .src = some (.portIngest s.ports.inData) := by
  simp [agentInstr, inputInstr, State.view, hv, hr]

theorem agentInstr_src_of_not_ready {s : State} (h : ¬(s.ports.inValid = true ∧ s.inReady = true)) :
    agentInstr s .src = none := by
  simpa [agentInstr, inputInstr, State.view] using h

theorem agentInstr_sink_of_ready {s : State} (hr : s.ports.outReady = true) (hq : s.outq ≠ []) :
    agentInstr s .sink = some .pop := by
  simp [agentInstr, outputInstr, State.view, State.outValid, hr, hq]

theorem agentInstr_sink_of_not_ready {s : State} (h : s.ports.outReady = false ∨ s.outq = []) :
    agentInstr s .sink = none := by
  rcases h with h | h <;> simp [agentInstr, outputInstr, State.view, State.outValid, h]

theorem firstMove_of_src {s : State} {i : Instr} (h : agentInstr s .src = some i) :
    ∃ rest, firstMove s (cycleTurns s []) = some (i, rest) := by
  simp [cycleTurns, eligible, firstMove, h]

theorem firstMove_of_sink {s : State} {i : Instr} (hsrc : agentInstr s .src = none)
    (h : agentInstr s .sink = some i) : ∃ rest, firstMove s (cycleTurns s []) = some (i, rest) := by
  simp [cycleTurns, eligible, firstMove, hsrc, h]

theorem firstMove_of_idle_ports {s : State} (hsrc : agentInstr s .src = none) (hsink : agentInstr s .sink = none) :
    firstMove s (cycleTurns s []) = none := by
  simp [cycleTurns, eligible, firstMove, hsrc, hsink]

/-- Settles O42: SRC is the only agent that can move, and it moves exactly when `in_valid ∧ in_ready`. -/
theorem offeredByteIsTakenWhenReady : Obligations.OfferedByteIsTakenWhenReady := by
  intro s ports later ht hi hrst hstop hend hstart hout
  have hf := fetch_of_quiet ht hi ⟨hrst, hstop, hend, hstart⟩
  by_cases hr : ports.inValid = true ∧ s.inReady = true
  · obtain ⟨rest, hm⟩ := firstMove_of_src (agentInstr_src_of_ready (s := s.openCycle ports later) hr.1 hr.2)
    exact ⟨_, (step_of_move hf hm).trans (if_pos hr.2), rfl, rfl, rfl, rfl, fun _ => ⟨rfl, rfl, rfl⟩,
      fun hn => absurd hr hn⟩
  · have hm := firstMove_of_idle_ports (s := s.openCycle ports later) (agentInstr_src_of_not_ready hr)
      (agentInstr_sink_of_not_ready (.inl hout))
    exact ⟨_, step_of_no_move hf hm, rfl, rfl, rfl, rfl, fun hy => absurd hy hr, fun _ => ⟨rfl, rfl, rfl⟩⟩

/-- Settles O43: SINK is the only agent that can move, and it moves exactly when `out_valid ∧ out_ready`. -/
theorem frontIsTakenWhenReady : Obligations.FrontIsTakenWhenReady := by
  intro s ports later ht hi hrst hstop hend hstart hin
  have hf := fetch_of_quiet ht hi ⟨hrst, hstop, hend, hstart⟩
  have hsrc : agentInstr (s.openCycle ports later) .src = none :=
    agentInstr_src_of_not_ready fun h => Bool.false_ne_true (hin.symm.trans h.1)
  cases hq : s.outq with
  | nil =>
    have hm := firstMove_of_idle_ports hsrc (agentInstr_sink_of_not_ready (.inr hq))
    exact ⟨_, step_of_no_move hf hm, rfl, rfl, rfl, rfl, nofun, fun _ => ⟨hq, rfl, rfl⟩⟩
  | cons smp rest =>
    cases hr : ports.outReady with
    | false =>
      have hm := firstMove_of_idle_ports hsrc (agentInstr_sink_of_not_ready (.inl hr))
      exact ⟨_, step_of_no_move hf hm, rfl, rfl, rfl, rfl, nofun, fun _ => ⟨hq, rfl, rfl⟩⟩
    | true =>
      obtain ⟨turns, hm⟩ := firstMove_of_sink hsrc
        (agentInstr_sink_of_ready (s := s.openCycle ports later) hr (by simp [State.openCycle, hq]))
      refine ⟨_, (step_of_move hf hm).trans (exec_pop_of_cons _ smp rest hq), rfl, rfl, rfl, rfl, ?_, nofun⟩
      rintro _ _ - ⟨⟩
      exact ⟨rfl, rfl, rfl⟩

end Sys2Proof.Machine

/-! ### Delivery -/

namespace Sys2Proof.Machine

/-! #### R61: first in, first out -/

@[simp] theorem emitted_frameOk (p : Nat) (smp : Sample) : emitted [.frameOk p smp] = [smp] := rfl
@[simp] theorem popped_frameOk (p : Nat) (smp : Sample) : popped [.frameOk p smp] = [] := rfl
@[simp] theorem emitted_pop (smp : Sample) : emitted [.pop smp] = [] := rfl

theorem FifoInv.sameBlock {s t : State} (h : SameBlock s t) (hs : FifoInv s) : FifoInv t := by
  rw [h]
  exact hs

/-- An event that neither emits nor delivers a sample, beside an unchanged queue. -/
theorem FifoInv.snoc {s t : State} (hs : FifoInv s) (e : Event) (hh : t.hist = s.hist ++ [e]) (hq : t.outq = s.outq)
    (hp : popped [e] = []) (he : emitted [e] = []) : FifoInv t := by
  simpa [FifoInv, hh, hq, hp, he] using hs

/-- An emitted sample joins the queue at its back. -/
theorem FifoInv.emit {s : State} (hs : FifoInv s) (p : Nat) (smp : Sample) :
    FifoInv ((s.emit smp).record (.frameOk p smp)) := by
  simpa [FifoInv] using congrArg (· ++ [smp]) hs

/-- A delivered sample leaves the queue at its front. -/
theorem FifoInv.pop {s : State} (hs : FifoInv s) {smp : Sample} {rest : List Sample} (hq : s.outq = smp :: rest) :
    FifoInv { s.record (.pop smp) with outq := rest } := by
  simpa [FifoInv, hq] using hs

theorem FifoInv.effect {s t : State} (h : Effect s t) (hs : FifoInv s) : FifoInv t := by
  cases h with
  | hold => exact hs
  | ingest b => exact hs.snoc (.ingest b) rfl rfl rfl rfl
  | extract => exact hs.snoc (.extract s.pos) rfl rfl rfl rfl
  | discard => exact hs.snoc (.discard s.pos) rfl rfl rfl rfl
  | decOk => exact hs.emit s.candPos (sampleOf s.candBytes)
  | decBad => exact hs.snoc (.csumBad s.candPos) rfl rfl rfl rfl
  | pop _ _ hq => exact hs.pop hq
  | startOk => exact hs.snoc .startOk rfl rfl rfl rfl
  | startFail => exact hs.snoc .openFail rfl rfl rfl rfl
  | stop => exact hs.snoc .stop rfl rfl rfl rfl
  | endOfStream => exact hs.snoc (.srcEnd .eos) rfl rfl rfl rfl
  | readFailure => exact hs.snoc (.srcEnd .readFail) rfl rfl rfl rfl
  | reset => exact fifoInv_resetWith s.params

/-- Settles O49: DEC_OK and POP record the sample they move, RESET empties history and queue, and no other effect
concerns either. -/
theorem stepKeepsDeliveryOrder : Obligations.StepKeepsDeliveryOrder := fun _ _ hl hs h =>
  step_keeps_of_effect FifoInv.sameBlock FifoInv.effect hl hs h

/-! #### R63, R181: what was emitted, against `Scan` -/

/-- R170: fewer than 34 bytes are residue. -/
theorem scanT_of_short {s : List Byte} (h : s.length < 34) (p : Nat) :
    scanT s p = { out := [], res := s, trace := [] } := by
  unfold scanT
  cases s.length <;> simp [scanFuel, h]

theorem pending_of_empty_slot {s : State} (h : s.candValid = false) : s.pending = [] := by
  simp [State.pending, h]

/-- Settles O53: the invariant splits `Scan` of the stream into what was emitted, the candidate's sample and `Scan`
of the accumulator; the last two are empty once nothing is left to scan or decode. -/
theorem emittedIsPartOfScan : Obligations.EmittedIsPartOfScan := by
  rintro s ⟨hout, hres⟩
  refine ⟨⟨s.pending ++ (scan s.acc).out, by rw [← List.append_assoc, hout]⟩, fun hv hshort => ?_⟩
  have hscan : scan s.acc = { out := [], res := s.acc, trace := [] } := scanT_of_short hshort 0
  rw [hscan, pending_of_empty_slot hv, List.append_nil, List.append_nil] at hout
  rw [hscan] at hres
  exact ⟨hout, hres⟩

end Sys2Proof.Machine

/-! ### The stopped block -/

namespace Sys2Proof.Machine

/-- R64, R151, R154: what the operation `op`, if any, of a stopped block that is not RESET may do to it. -/
structure Frozen (op : Option Instr) (s t : State) : Prop where
  acc : t.acc = s.acc := by rfl
  candValid : t.candValid = s.candValid := by rfl
  cand : t.cand = s.cand := by rfl
  pos : t.pos = s.pos := by rfl
  nIn : t.nIn = s.nIn := by rfl
  nDisc : t.nDisc = s.nDisc := by rfl
  nOk : t.nOk = s.nOk := by rfl
  nBad : t.nBad = s.nBad := by rfl
  csumErrCount : t.csumErrCount = s.csumErrCount := by rfl
  queue : t.outq = s.outq ∨ op = some .pop ∧ ∃ smp, s.outq = smp :: t.outq
  run : t.run = .stopped ∨ op = some .startOk
  stopCause : t.stopCause = s.stopCause ∨ op = some .startOk ∨ op = some .startFail
  hist : t.hist = s.hist ∨ op = some .pop ∨ op = some .startOk ∨ op = some .startFail

theorem Frozen.hold (op : Option Instr) {s : State} (hr : s.run = .stopped) : Frozen op s s where
  queue := .inl rfl
  run := .inl hr
  stopCause := .inl rfl
  hist := .inl rfl

theorem Frozen.sameBlock {op : Option Instr} {s u t : State} (hu : SameBlock s u) (h : Frozen op u t) :
    Frozen op s t := by
  rw [hu] at h
  exact { h with }

/-- R64, R89: every level-H operation but the four that follow is disabled in a stopped block, or is the hold. -/
theorem exec_of_stopped {i : Instr} {s : State} (hl : i.level = .levelH) (hr : s.run = .stopped)
    (hi : i ∉ [.pop, .startOk, .startFail, .reset]) : exec i s = .next s := by
  have hrun : s.running = false := s.running_eq_false_iff.mpr hr
  cases i with
  | scanWait => exact exec_scanWait s
  | portIngest => exact exec_of_not_enabled _ s hl (by simp [State.enabled, State.canIngest, State.inReady, hrun])
  | scanExtract => exact exec_of_not_enabled _ s hl (by simp [State.enabled, State.canExtract, State.scanFree, hrun])
  | scanDiscard => exact exec_of_not_enabled _ s hl (by simp [State.enabled, State.canDiscard, State.scanFree, hrun])
  | decOk => exact exec_of_not_enabled _ s hl (by simp [State.enabled, State.canDecOk, hrun])
  | decBad => exact exec_of_not_enabled _ s hl (by simp [State.enabled, State.canDecBad, hrun])
  | stop | srcEndEos | srcEndReadFail => exact exec_of_not_enabled _ s hl hrun
  | pop | startOk | startFail | reset => simp at hi
  | frame | ingest | tryExtractFrame | decode => cases hl

theorem exec_startOk_of_stopped {s : State} (hr : s.run = .stopped) :
    exec .startOk s = .next { s.record .startOk with run := .running, stopCause := Condition.code .none } :=
  if_neg (by simp [hr])

theorem exec_startFail_of_stopped {s : State} (hr : s.run = .stopped) :
    exec .startFail s =
      .next { s.record .openFail with
              stopCause := Condition.code .streamOpenFailure, out := { s.out with openFailure := true } } :=
  if_neg (by simp [hr])

theorem Frozen.of_exec_pop {s t : State} (hr : s.run = .stopped) (h : exec .pop s = .next t) :
    Frozen (some .pop) s t := by
  cases hq : s.outq with
  | nil =>
    cases (exec_pop_of_empty s hq).symm.trans h
    exact .hold _ hr
  | cons smp rest =>
    cases (exec_pop_of_cons s smp rest hq).symm.trans h
    exact { queue := .inr ⟨rfl, smp, hq⟩, run := .inl hr, stopCause := .inl rfl, hist := .inr (.inl rfl) }

theorem Frozen.of_exec_startOk {s t : State} (hr : s.run = .stopped) (h : exec .startOk s = .next t) :
    Frozen (some .startOk) s t := by
  cases (exec_startOk_of_stopped hr).symm.trans h
  exact { queue := .inl rfl, run := .inr rfl, stopCause := .inr (.inl rfl), hist := .inr (.inr (.inl rfl)) }

theorem Frozen.of_exec_startFail {s t : State} (hr : s.run = .stopped) (h : exec .startFail s = .next t) :
    Frozen (some .startFail) s t := by
  cases (exec_startFail_of_stopped hr).symm.trans h
  exact { queue := .inl rfl, run := .inl hr, stopCause := .inr (.inr rfl), hist := .inr (.inr (.inr rfl)) }

theorem Frozen.of_exec {i : Instr} {s t : State} (hl : i.level = .levelH) (hr : s.run = .stopped)
    (h : exec i s = .next t) : i = .reset ∨ Frozen (some i) s t := by
  by_cases hi : i ∈ [.pop, .startOk, .startFail, .reset]
  · simp only [List.mem_cons, List.not_mem_nil, or_false] at hi
    obtain rfl | rfl | rfl | rfl := hi
    · exact .inr (.of_exec_pop hr h)
    · exact .inr (.of_exec_startOk hr h)
    · exact .inr (.of_exec_startFail hr h)
    · exact .inl rfl
  · cases (exec_of_stopped hl hr hi).symm.trans h
    exact .inr (.hold _ hr)

/-- A step of a stopped block whose script holds no call. -/
theorem step_frozen {s t : State} (hl : s.levelHOnly = true) (hr : s.run = .stopped) (h : step s = .next t) :
    (fetch s).1 = some .reset ∨ Frozen (fetch s).1 s t := by
  have hsame : SameBlock s (fetch s).2 := fetch_same s
  have hru : (fetch s).2.run = .stopped := by rw [hsame]; exact hr
  obtain ⟨i, hi, he⟩ | ⟨-, rfl⟩ := step_cases s t h
  · rw [hi]
    exact (Frozen.of_exec (fetch_levelH hl hi) hru he).imp (congrArg some) (.sameBlock hsame)
  · exact .inr (.sameBlock hsame (.hold _ hru))

/-- Settles O35: a fetched operation of level H is one of POP, START and RESET, or has no effect while stopped. -/
theorem stoppedBlockIsFrozen : Obligations.StoppedBlockIsFrozen := fun _ _ hl hr h =>
  (step_frozen hl hr h).imp_right fun hf =>
    ⟨hf.acc, hf.candValid, hf.cand, hf.pos, hf.nIn, hf.nDisc, hf.nOk, hf.nBad, hf.csumErrCount, hf.queue, hf.run,
      hf.stopCause, hf.hist⟩

end Sys2Proof.Machine

/-! ### The FRAME format and the decoder -/

namespace Sys2Proof.Machine

/-! #### R81, R84: bytes and little-endian words -/

/-- R84: four bytes that are consecutive slices of a word make the slice they span. -/
theorem le32_of_slices {w : Nat} {f : List Byte} {o : Nat} (v : BitVec w) (start : Nat)
    (h : ∀ k < 4, f.getD (o + k) 0 = v.extractLsb' (start + 8 * k) 8) : le32 f o = v.extractLsb' start 32 := by
  have h0 : f.getD o 0 = v.extractLsb' start 8 := h 0 (by decide)
  simp only [le32, h0, h 1 (by decide), h 2 (by decide), h 3 (by decide)]
  rw [BitVec.extractLsb'_append_extractLsb'_eq_extractLsb' (start₁ := start + 16) (len₁ := 8) rfl,
    BitVec.extractLsb'_append_extractLsb'_eq_extractLsb' (start₁ := start + 8) (len₁ := 8) rfl,
    BitVec.extractLsb'_append_extractLsb'_eq_extractLsb' (len₁ := 8) rfl]

/-- R81: the same of the six reserved bytes. -/
theorem le48_of_slices {w : Nat} {f : List Byte} {o : Nat} (v : BitVec w) (start : Nat)
    (h : ∀ k < 6, f.getD (o + k) 0 = v.extractLsb' (start + 8 * k) 8) : le48 f o = v.extractLsb' start 48 := by
  have h0 : f.getD o 0 = v.extractLsb' start 8 := h 0 (by decide)
  simp only [le48, h0, h 1 (by decide), h 2 (by decide), h 3 (by decide), h 4 (by decide), h 5 (by decide)]
  rw [BitVec.extractLsb'_append_extractLsb'_eq_extractLsb' (start₁ := start + 32) (len₁ := 8) rfl,
    BitVec.extractLsb'_append_extractLsb'_eq_extractLsb' (start₁ := start + 24) (len₁ := 8) rfl,
    BitVec.extractLsb'_append_extractLsb'_eq_extractLsb' (start₁ := start + 16) (len₁ := 8) rfl,
    BitVec.extractLsb'_append_extractLsb'_eq_extractLsb' (start₁ := start + 8) (len₁ := 8) rfl,
    BitVec.extractLsb'_append_extractLsb'_eq_extractLsb' (len₁ := 8) rfl]

@[simp] theorem le32_bytesLe32 (v : Word32) : le32 (bytesLe32 v) 0 = v := by
  refine (le32_of_slices v 0 fun k hk => ?_).trans BitVec.extractLsb'_eq_self
  interval_cases k <;> rfl

@[simp] theorem le48_bytesLe48 (v : BitVec 48) : le48 (bytesLe48 v) 0 = v := by
  refine (le48_of_slices v 0 fun k hk => ?_).trans BitVec.extractLsb'_eq_self
  interval_cases k <;> rfl

theorem getD_take_drop (f : List Byte) {a n i : Nat} (h : i < n) :
    ((f.drop a).take n).getD i 0 = f.getD (a + i) 0 := by
  simp [List.getD_eq_getElem?_getD, h]

theorem le32_take_drop (f : List Byte) {a n o : Nat} (h : o + 4 ≤ n) :
    le32 ((f.drop a).take n) o = le32 f (a + o) := by
  simp only [le32, getD_take_drop f (show o < n by omega), getD_take_drop f (show o + 1 < n by omega),
    getD_take_drop f (show o + 2 < n by omega), getD_take_drop f (show o + 3 < n by omega), Nat.add_assoc]

theorem le48_take_drop (f : List Byte) {a n o : Nat} (h : o + 6 ≤ n) :
    le48 ((f.drop a).take n) o = le48 f (a + o) := by
  simp only [le48, getD_take_drop f (show o < n by omega), getD_take_drop f (show o + 1 < n by omega),
    getD_take_drop f (show o + 2 < n by omega), getD_take_drop f (show o + 3 < n by omega),
    getD_take_drop f (show o + 4 < n by omega), getD_take_drop f (show o + 5 < n by omega), Nat.add_assoc]

/-- R84: a word is read where its four bytes stand. -/
theorem le32_of_bytesLe32 {f : List Byte} {o : Nat} {v : Word32} (h : (f.drop o).take 4 = bytesLe32 v) :
    le32 f o = v := by
  rw [← le32_bytesLe32 v, ← h, le32_take_drop f (by decide), Nat.add_zero]

theorem le48_of_bytesLe48 {f : List Byte} {o : Nat} {v : BitVec 48} (h : (f.drop o).take 6 = bytesLe48 v) :
    le48 f o = v := by
  rw [← le48_bytesLe48 v, ← h, le48_take_drop f (by decide), Nat.add_zero]

theorem bytesLe32_append (b3 b2 b1 b0 : Byte) : bytesLe32 (b3 ++ b2 ++ b1 ++ b0) = [b0, b1, b2, b3] := by
  have above_b0 (k : Nat) : (b3 ++ b2 ++ b1 ++ b0).extractLsb' (8 + k) 8 = (b3 ++ b2 ++ b1).extractLsb' k 8 :=
    extractLsb'_append_add _ b0 k 8
  have above_b1 (k : Nat) := (above_b0 (8 + k)).trans (extractLsb'_append_add _ b1 k 8)
  have above_b2 (k : Nat) := (above_b1 (8 + k)).trans (extractLsb'_append_add b3 b2 k 8)
  simp only [bytesLe32, List.cons.injEq, and_true]
  exact ⟨BitVec.extractLsb'_append_eq_right, (above_b0 0).trans BitVec.extractLsb'_append_eq_right,
    (above_b1 0).trans BitVec.extractLsb'_append_eq_right, (above_b2 0).trans BitVec.extractLsb'_eq_self⟩

theorem bytesLe48_append (b5 b4 b3 b2 b1 b0 : Byte) :
    bytesLe48 (b5 ++ b4 ++ b3 ++ b2 ++ b1 ++ b0) = [b0, b1, b2, b3, b4, b5] := by
  have above_b0 (k : Nat) : (b5 ++ b4 ++ b3 ++ b2 ++ b1 ++ b0).extractLsb' (8 + k) 8 =
      (b5 ++ b4 ++ b3 ++ b2 ++ b1).extractLsb' k 8 := extractLsb'_append_add _ b0 k 8
  have above_b1 (k : Nat) := (above_b0 (8 + k)).trans (extractLsb'_append_add _ b1 k 8)
  have above_b2 (k : Nat) := (above_b1 (8 + k)).trans (extractLsb'_append_add _ b2 k 8)
  have above_b3 (k : Nat) := (above_b2 (8 + k)).trans (extractLsb'_append_add _ b3 k 8)
  have above_b4 (k : Nat) := (above_b3 (8 + k)).trans (extractLsb'_append_add b5 b4 k 8)
  simp only [bytesLe48, List.cons.injEq, and_true]
  exact ⟨BitVec.extractLsb'_append_eq_right, (above_b0 0).trans BitVec.extractLsb'_append_eq_right,
    (above_b1 0).trans BitVec.extractLsb'_append_eq_right, (above_b2 0).trans BitVec.extractLsb'_append_eq_right,
    (above_b3 0).trans BitVec.extractLsb'_append_eq_right, (above_b4 0).trans BitVec.extractLsb'_eq_self⟩

/-- The bytes at the offsets `o` to `o + n - 1`, one by one. -/
theorem take_drop_eq_map_getD {f : List Byte} {o n : Nat} (h : o + n ≤ f.length) :
    (f.drop o).take n = (List.range n).map fun k => f.getD (o + k) 0 := by
  refine List.ext_getElem (by simp; omega) fun i hi _ => ?_
  have hf : o + i < f.length := by simp at hi; omega
  simp [hf]

/-- R84: writing a word back gives the bytes it was read from. -/
theorem bytesLe32_le32 {f : List Byte} {o : Nat} (h : o + 4 ≤ f.length) :
    bytesLe32 (le32 f o) = (f.drop o).take 4 := by
  rw [le32, bytesLe32_append, take_drop_eq_map_getD h]
  rfl

theorem bytesLe48_le48 {f : List Byte} {o : Nat} (h : o + 6 ≤ f.length) :
    bytesLe48 (le48 f o) = (f.drop o).take 6 := by
  rw [le48, bytesLe48_append, take_drop_eq_map_getD h]
  rfl

/-! #### R81: frames and their fields -/

theorem take_append_checksum {f : List Byte} (hl : f.length = 34) : f.take 33 ++ [f.getD 33 0] = f := by
  have hlast : (f.drop 33).take 1 = [f.getD 33 0] := take_drop_eq_map_getD hl.ge
  rw [← hlast, ← List.take_add, List.take_of_length_le hl.le]

theorem marked_iff (bytes : List Byte) : marked bytes = true ↔ bytes.take 3 = marker := by simp [marked]

@[simp] theorem marked_frameBytes (f : FrameFields) : marked (frameBytes f) = true := rfl

@[simp] theorem length_frameBytes (f : FrameFields) : (frameBytes f).length = 34 := rfl

theorem sampleOf_frameBytes (f : FrameFields) : sampleOf (frameBytes f) = f.payload := by
  rw [sampleOf, le32_of_bytesLe32 (v := f.payload.gx) rfl, le32_of_bytesLe32 (v := f.payload.gy) rfl,
    le32_of_bytesLe32 (v := f.payload.gz) rfl, le32_of_bytesLe32 (v := f.payload.ax) rfl,
    le32_of_bytesLe32 (v := f.payload.ay) rfl, le32_of_bytesLe32 (v := f.payload.az) rfl]

/-- R81: each field is read where it was written. -/
theorem fieldsOf_frameBytes (f : FrameFields) : fieldsOf (frameBytes f) = f := by
  rw [fieldsOf, sampleOf_frameBytes, le48_of_bytesLe48 (v := f.reserved) rfl]
  rfl

/-- R81, R82: the marker and the fields are all of a frame, so no bit is lost. -/
theorem frameBytes_fieldsOf {bytes : List Byte} (hl : bytes.length = 34) (hm : marked bytes = true) :
    frameBytes (fieldsOf bytes) = bytes := by
  conv_rhs => rw [← take_append_checksum hl, show 33 = 3 + 4 + 4 + 4 + 4 + 4 + 4 + 6 from rfl]
  simp only [List.take_add]
  simp only [frameBytes, frameBody, sampleBytes, fieldsOf, sampleOf, csumOff_eq, rsvdOff_eq,
    ← (marked_iff bytes).mp hm, bytesLe32_le32, bytesLe48_le48, hl, List.append_assoc, Nat.reduceAdd, Nat.reduceLeDiff]

theorem decode_frameBytes (f : FrameFields) : decode (.frame (frameBytes f)) = .ok (.frame f) := by
  simp [decode, fieldsOf_frameBytes]

/-- Settles O1: a FRAME by `decode_frameBytes`; a step chosen by a window or a candidate by the written-out bytes that
select it; a call or a port event by the signals that name it. -/
theorem decodeOfEncode : Obligations.DecodeOfEncode := by
  intro i _
  cases i with
  | frame f => exact decode_frameBytes f
  | scanExtract | scanDiscard | scanWait | decOk | decBad => decide
  | ingest | tryExtractFrame | decode | portIngest | pop | startOk | startFail | stop | srcEndEos | srcEndReadFail
  | reset => rfl

/-- Settles O2: a marked sequence of 34 bytes is the frame of its fields (`frameBytes_fieldsOf`). -/
theorem frameBytesDecodeAndReencode : Obligations.FrameBytesDecodeAndReencode := by
  intro bytes
  refine ⟨fun hl => if_pos hl, fun hl hm => ?_, fun hl hm => ?_⟩
  · simp [decode, hl, mt (marked_iff bytes).mp hm]
  · have hm' : marked bytes = true := (marked_iff bytes).mpr hm
    exact ⟨fieldsOf bytes, by simp [decode, hl, hm'], frameBytes_fieldsOf hl hm'⟩

/-! #### R81, R88: the 272-bit word of a window -/

section
variable (w : BitVec 272)

@[simp] theorem length_bytesOfWord : (bytesOfWord w).length = 34 := by simp [bytesOfWord]

theorem getD_bytesOfWord {i : Nat} (hi : i < 34) : (bytesOfWord w).getD i 0 = w.extractLsb' (8 * i) 8 := by
  simp [bytesOfWord, hi]

theorem le32_bytesOfWord {o : Nat} (ho : o + 4 ≤ 34) : le32 (bytesOfWord w) o = w.extractLsb' (8 * o) 32 :=
  le32_of_slices w (8 * o) fun k hk => by rw [getD_bytesOfWord w (by omega), Nat.mul_add]

theorem le48_bytesOfWord {o : Nat} (ho : o + 6 ≤ 34) : le48 (bytesOfWord w) o = w.extractLsb' (8 * o) 48 :=
  le48_of_slices w (8 * o) fun k hk => by rw [getD_bytesOfWord w (by omega), Nat.mul_add]

/-- R82: the three marker bytes are the low 24 bits of the word. -/
theorem marked_bytesOfWord_iff : marked (bytesOfWord w) = true ↔ w.extractLsb' 0 24 = 0x0ADBBD := by
  have hhead : (bytesOfWord w).take 3 = [w.extractLsb' 0 8, w.extractLsb' 8 8, w.extractLsb' 16 8] := rfl
  rw [marked_iff, hhead]
  simp only [marker, List.cons.injEq, and_true, ← BitVec.toNat_inj, BitVec.extractLsb'_toNat,
    Nat.shiftRight_eq_div_pow, BitVec.ofNat_eq_ofNat, BitVec.toNat_ofNat, Nat.reducePow, Nat.reduceMod]
  omega

end

/-- R88: masking with 0xFFFFFF compares the low 24 bits. -/
theorem and_mask_eq_iff {n m : Nat} (w : BitVec n) (hn : 24 ≤ n) (hm : m < 2 ^ 24) :
    w &&& BitVec.ofNat n (2 ^ 24 - 1) = BitVec.ofNat n m ↔ w.extractLsb' 0 24 = BitVec.ofNat 24 m := by
  have hpow : 2 ^ 24 ≤ 2 ^ n := Nat.pow_le_pow_right (by decide) hn
  rw [← BitVec.toNat_inj, ← BitVec.toNat_inj, BitVec.toNat_and, BitVec.extractLsb'_toNat, Nat.shiftRight_zero,
    BitVec.toNat_ofNat, BitVec.toNat_ofNat, BitVec.toNat_ofNat, Nat.mod_eq_of_lt hm,
    Nat.mod_eq_of_lt (hm.trans_le hpow), Nat.mod_eq_of_lt (Nat.lt_of_lt_of_le (by decide) hpow),
    Nat.and_two_pow_sub_one_eq_mod]

theorem checksumOk_iff (f : List Byte) : checksumOk f = true ↔ xor8 (f.take 33) = f.getD 33 0 := by
  simp [checksumOk]

/-- Settles O3: every field is little-endian in its bytes, and the bytes are the slices of the word. -/
theorem frameFieldsAreWordSlices : Obligations.FrameFieldsAreWordSlices := by
  intro w
  refine ⟨length_bytesOfWord w, fun i hi => getD_bytesOfWord w hi, ?_, marked_bytesOfWord_iff w, ?_⟩
  · simp only [fieldsOf, sampleOf, le32_bytesOfWord, le48_bytesOfWord, rsvdOff_eq, csumOff_eq, getD_bytesOfWord,
      Nat.reduceAdd, Nat.reduceLeDiff, Nat.reduceLT, Nat.reduceMul]
  · rw [checksumOk_iff, getD_bytesOfWord w (by decide)]
    exact eq_comm

/-! #### R87, R88: the class of a window and of a candidate -/

theorem windowInstr_of_short {bytes : List Byte} (h : bytes.length < 34) : windowInstr bytes = .scanWait := if_pos h

theorem windowInstr_of_window {bytes : List Byte} (h : 34 ≤ bytes.length) :
    windowInstr bytes = if marked bytes then .scanExtract else .scanDiscard := if_neg h.not_gt

theorem windowInstr_append {bytes : List Byte} (h : 34 ≤ bytes.length) (rest : List Byte) :
    windowInstr (bytes ++ rest) = windowInstr bytes := by
  rw [windowInstr_of_window h, windowInstr_of_window (by simp; omega), marked_append bytes rest (by simp; omega)]

theorem candidateInstr_eq_decOk_iff (f : List Byte) : candidateInstr f = .decOk ↔ checksumOk f = true := by
  simp [candidateInstr]

theorem candidateInstr_eq_decBad_iff (f : List Byte) : candidateInstr f = .decBad ↔ ¬checksumOk f = true := by
  simp [candidateInstr]

/-- Settles O4: the mask keeps the marker's 24 bits; the class reads only the length and the marker. -/
theorem windowClassFollowsMatchAndMask : Obligations.WindowClassFollowsMatchAndMask := by
  refine ⟨fun w => ?_, fun bytes h => congrArg Except.ok (windowInstr_of_short h),
    fun bytes rest h => congrArg Except.ok (windowInstr_append h.ge rest)⟩
  have hmask := and_mask_eq_iff w (m := 0x0ADBBD) (by decide) (by decide)
  simp only [decode, windowInstr_of_window (length_bytesOfWord w).ge, marked_bytesOfWord_iff]
  exact congrArg Except.ok (if_congr hmask.symm rfl rfl)

/-- Settles O5 by evaluation: every request is written out, so no operand is left open. -/
theorem writtenWordsDecode : Obligations.WrittenWordsDecode := by
  unfold Obligations.WrittenWordsDecode
  decide

/-! #### R86, R93, R131: the checksum -/

theorem foldl_xor (s : List Byte) (b : Byte) : s.foldl (fun x c => x ^^^ c) b = b ^^^ xor8 s := by
  induction s using List.reverseRecOn with
  | nil => simp [xor8]
  | append_singleton s c ih => rw [List.foldl_append, ih, xor8_snoc, ← BitVec.xor_assoc]; rfl

theorem xor8_append (s t : List Byte) : xor8 (s ++ t) = xor8 s ^^^ xor8 t := by
  rw [xor8, List.foldl_append]
  exact foldl_xor t (xor8 s)

/-- R86: the XOR of all 34 bytes is that of the covered bytes and the checksum byte. -/
theorem xor8_eq_xor_checksum {f : List Byte} (hl : f.length = 34) : xor8 f = xor8 (f.take 33) ^^^ f.getD 33 0 := by
  rw [← xor8_snoc, take_append_checksum hl]

/-- Settles O7: `xor8 f` is the covered XOR against the checksum byte, zero exactly when the two agree. -/
theorem validIffWholeFrameXorsToZero : Obligations.ValidIffWholeFrameXorsToZero := by
  intro f hl
  rw [candidateInstr_eq_decOk_iff, candidateInstr_eq_decBad_iff, checksumOk_iff, xor8_eq_xor_checksum hl]
  exact ⟨.rfl, BitVec.xor_eq_zero_iff.symm, .rfl⟩

theorem checksumOk_validFrame (smp : Sample) (reserved : BitVec 48) :
    checksumOk (frameBytes (validFrame smp reserved)) = true :=
  (checksumOk_iff _).mpr rfl

/-- Settles O10: the frame's bytes as `frameBytes` lists them; the XOR of the marker is 0x6C. -/
theorem builtFrameIsValid : Obligations.BuiltFrameIsValid := by
  intro smp r0 r1 r2 r3 r4 r5 f bytesLe covered
  have hbody : frameBody smp (r5 ++ r4 ++ r3 ++ r2 ++ r1 ++ r0) = marker ++ covered := by
    rw [frameBody, bytesLe48_append]
    rfl
  have hsum : f.checksum = xor8 (marker ++ covered) := congrArg xor8 hbody
  refine ⟨?_, length_frameBytes f, hsum.trans (xor8_append marker covered), ?_, ?_, sampleOf_frameBytes f⟩
  · exact congrArg₂ (fun body sum => body ++ [sum]) hbody hsum
  · rw [windowInstr_of_window (length_frameBytes f).ge, if_pos (marked_frameBytes f)]
  · exact (candidateInstr_eq_decOk_iff _).mpr (checksumOk_validFrame smp _)

/-! #### R85: what the sample depends on -/

/-- R83, R85: the sample is read from the 24 field bytes. -/
theorem sampleOf_eq_fieldBytes (f : List Byte) :
    sampleOf f =
      { gx := le32 ((f.drop 3).take 24) 0, gy := le32 ((f.drop 3).take 24) 4, gz := le32 ((f.drop 3).take 24) 8
        ax := le32 ((f.drop 3).take 24) 12, ay := le32 ((f.drop 3).take 24) 16
        az := le32 ((f.drop 3).take 24) 20 } := by
  simp [le32_take_drop, sampleOf]

/-- Settles O11: the sample is a function of the 24 field bytes. -/
theorem reservedBytesReachNoOutput : Obligations.ReservedBytesReachNoOutput := fun f g h => by
  rw [sampleOf_eq_fieldBytes f, sampleOf_eq_fieldBytes g, h]

/-! #### R89, R215: from a fetch to the operation it runs -/

theorem step_of_fetch_some {s t : State} {i : Instr} (h : fetch s = (some i, t)) : step s = exec i t := by
  simp [step, h]

theorem step_of_fetch_none {s t : State} (h : fetch s = (none, t)) : step s = .next t := by
  simp [step, h]

/-- R113: with a window and a free slot SYNC takes the step its window selects. -/
theorem fetch_of_sync_turn {s : State} (ht : s.turns = [.sync]) (hf : s.scanFree = true) (hw : s.hasWindow = true) :
    fetch s = (some (windowInstr s.acc), { s with turns := [] }) := by
  simp [fetch, ht, firstMove, agentInstr, hf, hw]

theorem fetch_of_call {s : State} {c : Call} {later : List Input} (ht : s.turns = [])
    (hi : s.inputs = .call c :: later) : fetch s = (some (callInstr c), s.openCycle {} later) := by
  simp [fetch, ht, hi, firstMove, State.openCycle]

/-- Settles O39: a step is its fetch and the operation found; a window and a call are fetched as they decode. -/
theorem stepRunsDecodedOperation : Obligations.StepRunsDecodedOperation := by
  intro s
  refine ⟨fun i t h => step_of_fetch_some h, fun t h => step_of_fetch_none h, ?_, ?_⟩
  · rintro i ht hr hv hl ⟨⟩
    exact step_of_fetch_some (fetch_of_sync_turn ht (s.scanFree_iff.mpr ⟨hr, hv⟩) (s.hasWindow_iff.mpr hl))
  · rintro i c later ht hi ⟨⟩
    rw [step_of_fetch_some (fetch_of_call ht hi), State.openCycle, ← ht]

/-- R215(2): a control event comes first in its cycle, and the agents' turns follow it. -/
theorem step_of_control {s : State} {ports : Ports} {order : List Agent} {later : List Input} {i : Instr}
    (ht : s.turns = []) (hi : s.inputs = .cycle ports order :: later)
    (hc : controlInstr (s.openCycle ports later).view = some i) :
    step s = exec i { s.openCycle ports later with turns := cycleTurns (s.openCycle ports later) order } := by
  unfold State.openCycle at hc ⊢
  exact step_of_fetch_some (by simp only [fetch_of_cycle ht hi, beginCycle, hc])

theorem controlInstr_of_start {v : PortView} (hr : v.running = false) (hrst : v.ports.rst = false)
    (hs : v.ports.start = true) : controlInstr v = some (if v.ports.openOk then .startOk else .startFail) := by
  simp [controlInstr, hr, hrst, hs]

/-- R64: in a cycle that begins stopped only SINK can get a turn. -/
theorem eq_sink_of_mem_cycleTurns {s : State} (hr : s.run = .stopped) {order : List Agent} {a : Agent}
    (ha : a ∈ cycleTurns s order) : a = .sink := by
  have hrun : s.running = false := s.running_eq_false_iff.mpr hr
  have he : eligible s a = true := (List.mem_filter.mp ha).2
  cases a with
  | sink => rfl
  | src => simp [eligible, agentInstr, inputInstr, State.view, State.inReady, hrun] at he
  | sync => simp [eligible, agentInstr, State.scanFree, hrun] at he
  | dec => simp [eligible, hrun] at he
  | ctrl => simp [eligible, agentInstr] at he

/-- Settles O44: START is the control event of the cycle, and its effect in a stopped block is known. -/
theorem startIsTakenWhenStopped : Obligations.StartIsTakenWhenStopped := by
  intro s ports order later ht hi hr hrst hstart
  have hc : controlInstr (s.openCycle ports later).view = some (if ports.openOk then .startOk else .startFail) :=
    controlInstr_of_start (s.running_eq_false_iff.mpr hr) hrst hstart
  have hturns : ∀ a ∈ cycleTurns (s.openCycle ports later) order, a = .sink := fun _ =>
    eq_sink_of_mem_cycleTurns (s := s.openCycle ports later) hr
  cases ho : ports.openOk with
  | true =>
    rw [ho] at hc
    exact ⟨_, (step_of_control ht hi hc).trans (exec_startOk_of_stopped hr),
      rfl, rfl, rfl, rfl, rfl, rfl, rfl, rfl, rfl, rfl, rfl, hturns⟩
  | false =>
    rw [ho] at hc
    exact ⟨_, (step_of_control ht hi hc).trans (exec_startFail_of_stopped hr),
      hr, rfl, rfl, rfl, rfl, rfl, rfl, rfl, rfl, rfl, rfl, hturns⟩

end Sys2Proof.Machine

/-! ### The synchronizer -/

namespace Sys2Proof.Machine

/-! #### R110, R111: bytes into the accumulator -/

@[simp] theorem ingestAll_nil (s : State) : s.ingestAll [] = s := by simp [State.ingestAll]

theorem ingestAll_ingestAll (s : State) (a b : List Byte) : (s.ingestAll a).ingestAll b = s.ingestAll (a ++ b) := by
  simp [State.ingestAll, Nat.add_assoc]

/-- Settles O12: `ingestAll` as it is written; no bytes add nothing, and two additions are one. -/
theorem ingestAppends : Obligations.IngestAppends := fun s a b =>
  ⟨rfl, congrArg _ (ingestAll_nil s), congrArg _ (ingestAll_ingestAll s a b)⟩

theorem State.canIngest_iff (s : State) :
    s.canIngest = true ↔ s.run = .running ∧ ∀ c, s.params.accCap = some c → s.acc.length < c := by
  simp [State.canIngest, State.inReady, hasRoom_iff]

/-- Settles O21: with `in_ready` the byte is appended and recorded; a stopped or a full block is not ready. -/
theorem ingestStepTakesOneByte : Obligations.IngestStepTakesOneByte := by
  intro s b
  have held (h : ¬s.canIngest = true) : exec (.portIngest b) s = .next s :=
    exec_of_not_enabled _ s rfl (Bool.eq_false_iff.mpr h)
  refine ⟨fun hr hroom => if_pos (s.canIngest_iff.mpr ⟨hr, hroom⟩), fun hr => held fun h => ?_,
    fun c hc hfull => held fun h => ?_⟩
  · obtain ⟨hrun, -⟩ := s.canIngest_iff.mp h
    simp [hr] at hrun
  · obtain ⟨-, hroom⟩ := s.canIngest_iff.mp h
    exact (hroom c hc).not_ge hfull

/-! #### R113 to R116: one scan step -/

theorem exec_scanExtract_of_enabled {s : State} (h : s.canExtract = true) :
    exec .scanExtract s =
      .next { (s.record (.extract s.pos)).remove frameLen with cand := windowOf s.acc, candValid := true } :=
  if_pos h

theorem exec_scanDiscard_of_enabled {s : State} (h : s.canDiscard = true) :
    exec .scanDiscard s = .next { s.discardHead with out := { s.out with evMarkerMismatch := true } } :=
  if_pos h

/-- R82: the marker byte by byte. -/
theorem marked_iff_getD {bytes : List Byte} (h : 3 ≤ bytes.length) :
    marked bytes = true ↔ bytes.getD 0 0 = 0xBD ∧ bytes.getD 1 0 = 0xDB ∧ bytes.getD 2 0 = 0x0A := by
  have hhead : bytes.take 3 = [bytes.getD 0 0, bytes.getD 1 0, bytes.getD 2 0] :=
    take_drop_eq_map_getD (o := 0) (by omega)
  rw [marked_iff, hhead]
  simp [marker]

/-- Settles O22: the three bytes are the marker, so the step is enabled; `cand` is the window. -/
theorem scanExtractTakesWindow : Obligations.ScanExtractTakesWindow := by
  intro s hr hv hw h0 h1 h2
  have hm : marked s.acc = true := (marked_iff_getD (by omega)).mpr ⟨h0, h1, h2⟩
  exact ⟨windowOf s.acc, windowOf_toList s.acc hw,
    exec_scanExtract_of_enabled (s.canExtract_iff.mpr ⟨hr, hv, hw, hm⟩)⟩

/-- Settles O23: the three bytes are not the marker, so the step is enabled, and it removes the head byte only. -/
theorem scanDiscardDropsOneByte : Obligations.ScanDiscardDropsOneByte := by
  intro s hr hv hw hne
  have hm : marked s.acc = false := Bool.eq_false_iff.mpr (mt (marked_iff_getD (by omega)).mp hne)
  exact exec_scanDiscard_of_enabled (s.canDiscard_iff.mpr ⟨hr, hv, hw, hm⟩)

theorem State.hasWindow_of_short {s : State} (h : s.acc.length < 34) : s.hasWindow = false :=
  decide_eq_false h.not_ge

theorem agentInstr_sync_of_short {s : State} (h : s.acc.length < 34) : agentInstr s .sync = none := by
  simp [agentInstr, State.hasWindow_of_short h]

/-- Settles O24: both scan steps need a window. -/
theorem shortWindowWaits : Obligations.ShortWindowWaits := by
  intro s h
  have hw : s.hasWindow = false := State.hasWindow_of_short h
  exact ⟨exec_scanWait s, exec_of_not_enabled _ s rfl (by simp [State.enabled, State.canExtract, hw]),
    exec_of_not_enabled _ s rfl (by simp [State.enabled, State.canDiscard, hw]), agentInstr_sync_of_short h⟩

/-! #### R113, R137: SYNC and DEC exclude each other -/

section
variable (s : State)

theorem not_canExtract_or_not_canDiscard : s.canExtract = false ∨ s.canDiscard = false := by
  cases hm : marked s.acc with
  | false => exact .inl (by simp [State.canExtract, hm])
  | true => exact .inr (by simp [State.canDiscard, hm])

theorem not_canDecOk_or_not_canDecBad : s.canDecOk = false ∨ s.canDecBad = false := by
  cases hk : checksumOk s.candBytes with
  | false => exact .inl (by simp [State.canDecOk, hk])
  | true => exact .inr (by simp [State.canDecBad, hk])

/-- The slot is either full, so that SYNC waits, or empty, so that DEC waits. -/
theorem sync_or_dec_waits :
    (s.canExtract = false ∧ s.canDiscard = false) ∨ (s.canDecOk = false ∧ s.canDecBad = false) := by
  cases hv : s.candValid with
  | false => exact .inr (by simp [State.canDecOk, State.canDecBad, hv])
  | true => exact .inl (by simp [State.canExtract, State.canDiscard, State.scanFree, hv])

end

theorem countP_id_le_one_of_exclusive : ∀ {a b c d : Bool}, a = false ∨ b = false → c = false ∨ d = false →
    (a = false ∧ b = false) ∨ (c = false ∧ d = false) → [a, b, c, d].countP id ≤ 1 := by
  decide

/-- Settles O36: a candidate in the slot rules out the scan steps, an empty slot the decode steps; the marker and the
checksum decide within each pair. -/
theorem atMostOneScanOrDecodeStep : Obligations.AtMostOneScanOrDecodeStep := fun s =>
  countP_id_le_one_of_exclusive (not_canExtract_or_not_canDiscard s) (not_canDecOk_or_not_canDecBad s)
    (sync_or_dec_waits s)

/-! #### R112, R117: discards up to the first marked window -/

/-- The first `k` places of the accumulator each begin a window without the marker: what SYNC discards (R113, R115). -/
def State.UnmarkedFor (s : State) (k : Nat) : Prop :=
  ∀ j, j < k → j + 34 ≤ s.acc.length ∧ marked (s.acc.drop j) = false

theorem exec_tryExtractFrame (s : State) : exec .tryExtractFrame s = .next s.tryExtract := rfl

/-- The state after `k` discards, each recorded at its own offset. -/
def State.discardN (s : State) (k : Nat) : State :=
  { s with
    acc := s.acc.drop k
    pos := s.pos + k
    nDisc := s.nDisc + k
    hist := s.hist ++ (List.range k).map fun j => .discard (s.pos + j) }

@[simp] theorem discardN_zero (s : State) : s.discardN 0 = s := by simp [State.discardN]

@[simp] theorem discardN_acc (s : State) (k : Nat) : (s.discardN k).acc = s.acc.drop k := rfl

theorem discardHead_discardN (s : State) (k : Nat) : s.discardHead.discardN k = s.discardN (k + 1) := by
  simp [State.discardN, State.discardHead, State.remove, State.record, List.range_succ_eq_map, Nat.add_comm,
    Nat.add_left_comm]

section
variable {s : State} {k : Nat}

theorem State.UnmarkedFor.head (h : s.UnmarkedFor (k + 1)) : 34 ≤ s.acc.length ∧ marked s.acc = false := by
  simpa using h 0 k.succ_pos

theorem State.UnmarkedFor.tail (h : s.UnmarkedFor (k + 1)) : s.discardHead.UnmarkedFor k := by
  intro j hj
  obtain ⟨hw, hm⟩ := h (j + 1) (Nat.succ_lt_succ hj)
  exact ⟨by simp; omega, by simpa [Nat.add_comm] using hm⟩

/-- R112: the window `k` bytes in is the first marked one. -/
theorem State.unmarkedFor_of_first_marked (hk : k + 34 ≤ s.acc.length)
    (hu : ∀ j, j < k → marked (s.acc.drop j) = false) : s.UnmarkedFor k :=
  fun j hj => ⟨by omega, hu j hj⟩

/-- R112: without a marked window everything but the last 33 bytes goes. -/
theorem State.unmarkedFor_of_no_marked (hu : ∀ j, j + 34 ≤ s.acc.length → marked (s.acc.drop j) = false) :
    s.UnmarkedFor (s.acc.length - 33) :=
  fun j hj => ⟨by omega, hu j (by omega)⟩

theorem tryExtractLoop_of_unmarkedFor (fuel : Nat) (h : s.UnmarkedFor k) :
    tryExtractLoop (fuel + k) s = tryExtractLoop fuel (s.discardN k) := by
  induction k generalizing s with
  | zero => rw [discardN_zero, Nat.add_zero]
  | succ k ih =>
    obtain ⟨hw, hm⟩ := h.head
    calc tryExtractLoop (fuel + k + 1) s
      _ = tryExtractLoop (fuel + k) s.discardHead := by simp [tryExtractLoop, hw, hm]
      _ = tryExtractLoop fuel (s.discardN (k + 1)) := by rw [ih h.tail, discardHead_discardN]

theorem tryExtractLoop_of_marked (fuel : Nat) (hw : 34 ≤ s.acc.length) (hm : marked s.acc = true) :
    tryExtractLoop (fuel + 1) s = s.takeFrame := by
  simp [tryExtractLoop, hw, hm]

theorem tryExtractLoop_of_short (fuel : Nat) (h : s.acc.length < 34) :
    tryExtractLoop fuel s = { s with reply := .noFrame } := by
  cases fuel with
  | zero => rfl
  | succ fuel => simp [tryExtractLoop, State.hasWindow_of_short h]

theorem tryExtract_of_first_marked (hk : k + 34 ≤ s.acc.length) (hu : ∀ j, j < k → marked (s.acc.drop j) = false)
    (hm : marked (s.acc.drop k) = true) : s.tryExtract = (s.discardN k).takeFrame := by
  have hfuel : s.acc.length = s.acc.length - k - 1 + 1 + k := by omega
  rw [State.tryExtract, hfuel, tryExtractLoop_of_unmarkedFor _ (State.unmarkedFor_of_first_marked hk hu)]
  exact tryExtractLoop_of_marked _ (by simp; omega) hm

theorem tryExtract_of_no_marked (hu : ∀ j, j + 34 ≤ s.acc.length → marked (s.acc.drop j) = false) :
    s.tryExtract = { s.discardN (s.acc.length - 33) with reply := .noFrame } := by
  have hfuel : s.acc.length = min s.acc.length 33 + (s.acc.length - 33) := by omega
  rw [State.tryExtract]
  nth_rw 1 [hfuel]
  rw [tryExtractLoop_of_unmarkedFor _ (State.unmarkedFor_of_no_marked hu)]
  exact tryExtractLoop_of_short _ (by simp; omega)

/-- R117: `k` SCAN_DISCARD steps make the same discards as the call; they also drive the pulse. -/
theorem runTrace_discards (h : s.UnmarkedFor k) (hr : s.run = .running) (hv : s.candValid = false)
    (rest : List Instr) :
    ∃ out, runTrace (List.replicate k .scanDiscard ++ rest) s = runTrace rest { s.discardN k with out := out } := by
  induction k generalizing s with
  | zero => exact ⟨s.out, by simp⟩
  | succ k ih =>
    obtain ⟨hw, hm⟩ := h.head
    have hc : s.canDiscard = true := s.canDiscard_iff.mpr ⟨hr, hv, hw, hm⟩
    obtain ⟨out, hrest⟩ :=
      ih (s := { s.discardHead with out := { s.out with evMarkerMismatch := true } }) h.tail hr hv
    refine ⟨out, ?_⟩
    rw [List.replicate_succ, List.cons_append, runTrace, exec_scanDiscard_of_enabled hc, ← discardHead_discardN]
    exact hrest

end

/-- Settles O13: `k` discards and then the marked window, or all the discards there are and no frame. -/
theorem tryExtractFindsFirstMarker : Obligations.TryExtractFindsFirstMarker := by
  intro s
  refine ⟨fun k hk hu hm => ⟨?_, windowOf_toList _ (by simp; omega)⟩, fun hu => ?_⟩
  · rw [exec_tryExtractFrame, tryExtract_of_first_marked hk hu hm]
    simp [State.takeFrame, State.remove, State.discardN]
  · rw [exec_tryExtractFrame, tryExtract_of_no_marked hu]
    rfl

/-- Settles O20: both levels make the same discards (`State.discardN`); SCAN_EXTRACT then does what the call's last
iteration does, and below 34 bytes both stop. -/
theorem tryExtractIsScanSteps : Obligations.TryExtractIsScanSteps := by
  intro s hr hv
  refine ⟨fun k hk hu hm => ?_, fun hu => ?_⟩
  · obtain ⟨out, ht⟩ := runTrace_discards (State.unmarkedFor_of_first_marked hk hu) hr hv [.scanExtract]
    have hw : 34 ≤ (s.acc.drop k).length := by simp; omega
    have hc : ({ s.discardN k with out := out } : State).canExtract = true :=
      (State.canExtract_iff _).mpr ⟨hr, hv, hw, hm⟩
    rw [runTrace, exec_scanExtract_of_enabled hc] at ht
    rw [exec_tryExtractFrame, tryExtract_of_first_marked hk hu hm]
    exact ⟨_, _, ht, rfl, rfl, rfl, rfl, rfl, rfl, rfl, rfl⟩
  · obtain ⟨out, ht⟩ := runTrace_discards (State.unmarkedFor_of_no_marked hu) hr hv [.scanWait]
    have hshort : (s.acc.drop (s.acc.length - 33)).length < 34 := by simp; omega
    rw [exec_tryExtractFrame, tryExtract_of_no_marked hu]
    exact ⟨_, _, ht, rfl, rfl, rfl, rfl, rfl, hv, rfl, rfl, State.hasWindow_of_short hshort,
      agentInstr_sync_of_short hshort⟩

end Sys2Proof.Machine

/-! ### The checksum and the decode steps -/

namespace Sys2Proof.Machine

/-! #### R131: the columns of `xor8` -/

@[simp] theorem xor8_nil : xor8 [] = 0#8 := rfl

theorem xor8_cons (b : Byte) (s : List Byte) : xor8 (b :: s) = b ^^^ xor8 s := by
  simpa [xor8] using foldl_xor s b

/-- R131: a bit of the checksum is the parity of its column; appending a byte in front flips it when the bit is set. -/
theorem getLsbD_xor8_iff (s : List Byte) (k : Nat) :
    (xor8 s).getLsbD k = true ↔ (s.countP fun x => x.getLsbD k) % 2 = 1 := by
  induction s with
  | nil => simp
  | cons b s ih =>
    rw [xor8_cons, BitVec.getLsbD_xor, List.countP_cons]
    cases b.getLsbD k with
    | false => simpa using ih
    | true =>
      rw [Bool.true_xor, Bool.not_eq_true', ← Bool.not_eq_true, ih, if_pos rfl]
      omega

theorem xor8_eq_of_perm {s t : List Byte} (h : s.Perm t) : xor8 s = xor8 t :=
  BitVec.eq_of_getLsbD_eq fun k _ => Bool.eq_iff_iff.mpr (by rw [getLsbD_xor8_iff, getLsbD_xor8_iff, h.countP_eq])

/-- Settles O6: the columns by `getLsbD_xor8_iff`, the rest by the laws of exclusive or. -/
theorem xorIsColumnParity : Obligations.XorIsColumnParity := by
  intro s t b c d
  refine ⟨xor8_nil, xor8_snoc s b, xor8_append s t, fun k _ => getLsbD_xor8_iff s k, xor8_eq_of_perm, ?_,
    BitVec.xor_assoc b c d, BitVec.xor_comm b c, BitVec.xor_self, BitVec.xor_zero⟩
  rw [xor8_snoc]
  exact BitVec.xor_eq_zero_iff.symm

theorem xor8_eq_zero_iff (s : List Byte) :
    xor8 s = 0#8 ↔ ∀ k, k < 8 → (s.countP fun x => x.getLsbD k) % 2 = 0 := by
  have hbit (k : Nat) : (xor8 s).getLsbD k = false ↔ (s.countP fun x => x.getLsbD k) % 2 = 0 := by
    rw [← Bool.not_eq_true, getLsbD_xor8_iff]
    omega
  simp only [← hbit]
  exact ⟨fun h k _ => by simp [h], fun h => BitVec.eq_of_getLsbD_eq fun k hk => by simp [h k hk]⟩

/-! #### R132, R133: changed frames -/

/-- R86: a frame is accepted when all its 34 bytes cancel. -/
theorem checksumOk_iff_xor8_eq_zero {f : List Byte} (hl : f.length = 34) : checksumOk f = true ↔ xor8 f = 0#8 := by
  rw [checksumOk_iff, xor8_eq_xor_checksum hl]
  exact BitVec.xor_eq_zero_iff.symm

/-- What two exclusive ors share drops out of their difference. -/
theorem xor_xor_xor_cancel_left (a b c : Byte) : (a ^^^ b) ^^^ (a ^^^ c) = b ^^^ c := by
  rw [BitVec.xor_comm a b, BitVec.xor_assoc, xor_cancel_left]

theorem xor8_map_xor {ι : Type} (l : List ι) (a b : ι → Byte) :
    xor8 (l.map fun j => a j ^^^ b j) = xor8 (l.map a) ^^^ xor8 (l.map b) := by
  induction l with
  | nil => simp
  | cons j l ih =>
    simp only [List.map_cons, xor8_cons, ih]
    ac_rfl

/-- R133(b): behind the marker, the difference of the checksums is the checksum of the byte differences. -/
theorem xor8_xor_of_marked {f g : List Byte} (hf : f.length = 34) (hg : g.length = 34) (hmf : marked f = true)
    (hmg : marked g = true) :
    xor8 f ^^^ xor8 g = xor8 ((List.range 31).map fun j => f.getD (3 + j) 0 ^^^ g.getD (3 + j) 0) := by
  have hsplit {f : List Byte} (hl : f.length = 34) (hm : marked f = true) :
      f = marker ++ (List.range 31).map fun j => f.getD (3 + j) 0 := by
    rw [← take_drop_eq_map_getD hl.ge, ← (marked_iff f).mp hm, ← List.take_add, List.take_of_length_le hl.le]
  conv_lhs => rw [hsplit hf hmf, hsplit hg hmg]
  rw [xor8_append, xor8_append, xor_xor_xor_cancel_left, xor8_map_xor]

/-- Settles O9: `f` cancels, so `g` is accepted when the two differ by bytes that cancel column by column. -/
theorem evenFlipsPerColumnAreAccepted : Obligations.EvenFlipsPerColumnAreAccepted := by
  intro f g hf hg hmf hmg hok
  have hzero : xor8 f = 0#8 := (checksumOk_iff_xor8_eq_zero hf).mp hok
  have hdiff := xor8_xor_of_marked hf hg hmf hmg
  rw [hzero, BitVec.zero_xor] at hdiff
  rw [checksumOk_iff_xor8_eq_zero hg, hdiff, xor8_eq_zero_iff]
  simp [List.countP_map, Function.comp_def]

theorem xor8_set {f : List Byte} {i : Nat} (hi : i < f.length) (b : Byte) :
    xor8 (f.set i b) = xor8 f ^^^ (f.getD i 0 ^^^ b) := by
  induction f generalizing i with
  | nil => simp at hi
  | cons c f ih =>
    cases i with
    | zero =>
      rw [List.set_cons_zero, List.getD_cons_zero, xor8_cons, xor8_cons, xor_xor_xor_cancel_left, BitVec.xor_comm]
    | succ i =>
      simp only [List.set_cons_succ, List.getD_cons_succ, xor8_cons, ih (Nat.lt_of_succ_lt_succ hi), BitVec.xor_assoc]

/-- R133(a): one changed byte of an accepted frame leaves a difference that nothing cancels. -/
theorem not_checksumOk_set {f : List Byte} {i : Nat} {b : Byte} (hl : f.length = 34) (hok : checksumOk f = true)
    (hi : i < 34) (hb : b ≠ f.getD i 0) : checksumOk (f.set i b) = false := by
  have hzero : xor8 f = 0#8 := (checksumOk_iff_xor8_eq_zero hl).mp hok
  rw [Bool.eq_false_iff, ne_eq, checksumOk_iff_xor8_eq_zero (by simpa using hl), xor8_set (by omega), hzero,
    BitVec.zero_xor, BitVec.xor_eq_zero_iff]
  exact hb.symm

theorem marked_set_of_ge (f : List Byte) {i : Nat} (hi : 3 ≤ i) (b : Byte) : marked (f.set i b) = marked f := by
  simp [marked, List.take_set_of_le hi]

theorem not_marked_set_of_lt {f : List Byte} {i : Nat} {b : Byte} (hm : marked f = true) (hi : i < 3)
    (hl : i < f.length) (hb : b ≠ f.getD i 0) : marked (f.set i b) = false := by
  refine Bool.eq_false_iff.mpr fun hm' => hb ?_
  have htake : (f.set i b).take 3 = f.take 3 := ((marked_iff _).mp hm').trans ((marked_iff f).mp hm).symm
  have hbyte := congrArg (·.getD i 0) htake
  simpa [List.getD_eq_getElem?_getD, hi, hl] using hbyte

/-! #### R170: one step of `Scan` -/

theorem scanT_of_unmarked {s : List Byte} (hw : 34 ≤ s.length) (hm : marked s = false) (p : Nat) :
    scanT s p =
      { scanT (s.drop 1) (p + 1) with trace := .discard p :: (scanT (s.drop 1) (p + 1)).trace } := by
  rw [← scanFuel_of_le (s.length + 1) s p (by omega), ← scanFuel_of_le s.length (s.drop 1) (p + 1) (by simp)]
  simp [scanFuel, hw.not_gt, hm]

theorem scanT_of_bad {s : List Byte} (hw : 34 ≤ s.length) (hm : marked s = true)
    (hbad : checksumOk (s.take 34) = false) (p : Nat) :
    scanT s p =
      { scanT (s.drop 34) (p + 34) with trace := .csumBad p :: (scanT (s.drop 34) (p + 34)).trace } := by
  rw [← scanFuel_of_le (s.length + 1) s p (by omega), ← scanFuel_of_le s.length (s.drop 34) (p + 34) (by simp)]
  simp [scanFuel, hw.not_gt, hm, hbad]

/-- Settles O8: a changed marker byte makes the window a mismatch; behind the marker the checksum catches the change.
Less than a window is left of the 34 bytes either way. -/
theorem oneCorruptByteIsNeverDecoded : Obligations.OneCorruptByteIsNeverDecoded := by
  intro f i b hl hm hok hi hb
  have hlen : (f.set i b).length = 34 := by simpa using hl
  refine ⟨fun hhead => ?_, fun hbody => ?_⟩
  · have hm' : marked (f.set i b) = false := not_marked_set_of_lt hm hhead (by omega) hb
    refine ⟨?_, ?_⟩
    · simp [windowInstr_of_window hlen.ge, hm']
    · rw [scan, scanT_of_unmarked hlen.ge hm', scanT_of_short (by simp [hl])]
  · have hm' : marked (f.set i b) = true := (marked_set_of_ge f hbody b).trans hm
    have hbad : checksumOk (f.set i b) = false := not_checksumOk_set hl hok hi hb
    refine ⟨?_, ?_, ?_⟩
    · simp [windowInstr_of_window hlen.ge, hm']
    · simp [candidateInstr_eq_decBad_iff, hbad]
    · have hall : (f.set i b).take 34 = f.set i b := List.take_of_length_le hlen.le
      have hrest : (f.set i b).drop 34 = [] := List.drop_of_length_le hlen.le
      rw [scan, scanT_of_bad hlen.ge hm' (by rwa [hall]), hrest, scanT_of_short (by decide)]

/-! #### R130, R202: `decode` at level O -/

theorem exec_decode_of_length {bytes : List Byte} (hl : bytes.length = 34) (s : State) :
    exec (.decode bytes) s = .next (s.decodeBytes bytes) := if_pos hl

/-- Settles O14: the offset is `offsetOf`, that of an outstanding candidate with these bytes where there is one. -/
theorem decodeReturnsSampleOrError : Obligations.DecodeReturnsSampleOrError := by
  intro s bytes hl
  refine ⟨?_, s.offsetOf bytes, fun q => offsetOf_mem s bytes q hl, fun hok => ?_, fun hbad => ?_⟩
  · rw [windowOf_toList _ hl.ge, List.take_of_length_le hl.le]
  · rw [exec_decode_of_length hl, State.decodeBytes, decodeAt_of_valid _ _ _ ((checksumOk_iff bytes).mpr hok)]
    rfl
  · rw [exec_decode_of_length hl, State.decodeBytes,
      decodeAt_of_bad _ _ _ (Bool.eq_false_iff.mpr (mt (checksumOk_iff bytes).mp hbad))]
    rfl

/-- Settles O15: the length is the only condition of `decode`. -/
theorem decodeRefusesOtherLengths : Obligations.DecodeRefusesOtherLengths := fun _ _ hl => if_neg hl

/-! #### R138, R139: the decode steps -/

theorem State.qFull_eq_false_iff (s : State) :
    s.qFull = false ↔ ∀ c, s.params.qCap = some c → s.outq.length < c := by
  simp [State.qFull, hasRoom_iff]

/-- Settles O25: with room the step is enabled; behind a full queue it is held. -/
theorem decOkEmitsSample : Obligations.DecOkEmitsSample := by
  intro s hr hv hok
  have hsum : checksumOk s.candBytes = true := (checksumOk_iff _).mpr hok
  refine ⟨fun hroom => ?_, fun c hc hfull => ?_⟩
  · have hen : s.canDecOk = true := s.canDecOk_iff.mpr ⟨hr, hv, hsum, s.qFull_eq_false_iff.mpr hroom⟩
    exact ⟨sampleOf s.candBytes, rfl, if_pos hen⟩
  · refine exec_of_not_enabled _ s rfl (Bool.eq_false_iff.mpr fun hen => ?_)
    obtain ⟨-, -, -, hroom⟩ := s.canDecOk_iff.mp hen
    exact (s.qFull_eq_false_iff.mp hroom c hc).not_ge hfull

/-- Settles O26: the step is enabled without a condition on the queue. -/
theorem decBadDropsCandidate : Obligations.DecBadDropsCandidate := by
  intro s hr hv hbad
  have hsum : checksumOk s.candBytes = false := Bool.eq_false_iff.mpr (mt (checksumOk_iff _).mp hbad)
  exact if_pos (s.canDecBad_iff.mpr ⟨hr, hv, hsum⟩)

end Sys2Proof.Machine

/-! ### Control, and that every step answers -/

namespace Sys2Proof.Machine

/-! #### R150 to R153: the control operations -/

theorem exec_start_of_running {s : State} (hr : s.run = .running) :
    exec .startOk s = .next s ∧ exec .startFail s = .next s :=
  have hen : (!s.running) = false := by simp [hr]
  ⟨exec_of_not_enabled .startOk s rfl hen, exec_of_not_enabled .startFail s rfl hen⟩

theorem exec_stop_of_running {s : State} (hr : s.run = .running) :
    exec .stop s = .next (s.halt .stopRequest .stop) := if_pos (s.running_iff.mpr hr)

theorem exec_srcEndEos_of_running {s : State} (hr : s.run = .running) :
    exec .srcEndEos s = .next (s.halt .endOfStream (.srcEnd .eos)) := if_pos (s.running_iff.mpr hr)

theorem exec_srcEndReadFail_of_running {s : State} (hr : s.run = .running) :
    exec .srcEndReadFail s = .next (s.halt .streamReadFailure (.srcEnd .readFail)) := if_pos (s.running_iff.mpr hr)

theorem exec_reset (s : State) :
    exec .reset s =
      .next { State.resetWith s.params with ports := s.ports, inputs := s.inputs, freeIx := s.freeIx } := rfl

/-- R64, R216: a halted block takes no byte, scans nothing and decodes nothing; what it has queued can still be
popped. -/
theorem halt_enabling (s : State) (c : Condition) (e : Event) :
    (s.halt c e).inReady = false ∧ (s.halt c e).canExtract = false ∧ (s.halt c e).canDiscard = false ∧
    (s.halt c e).canDecOk = false ∧ (s.halt c e).canDecBad = false ∧ (s.halt c e).canPop = s.canPop :=
  ⟨rfl, rfl, rfl, rfl, rfl, rfl⟩

/-- Settles O27: POP takes the front sample, if there is one. -/
theorem popDeliversFront : Obligations.PopDeliversFront := fun s =>
  ⟨exec_pop_of_cons s, exec_pop_of_empty s⟩

/-- Settles O28: START acts only on a stopped block. -/
theorem startSucceedsOrReports : Obligations.StartSucceedsOrReports := fun _ =>
  ⟨fun hr => ⟨exec_startOk_of_stopped hr, exec_startFail_of_stopped hr⟩, exec_start_of_running⟩

/-- Settles O29: STOP halts a running block, and a halted block only delivers. -/
theorem stopHaltsBlock : Obligations.StopHaltsBlock := by
  intro s
  refine ⟨exec_stop_of_running, fun t hr ht => ?_, exec_of_not_enabled .stop s rfl ∘ s.running_eq_false_iff.mpr⟩
  cases (exec_stop_of_running hr).symm.trans ht
  exact halt_enabling s _ _

/-- Settles O30: either cause halts a running block, and a halted block only delivers. -/
theorem sourceEndHaltsBlock : Obligations.SourceEndHaltsBlock := by
  intro s
  refine ⟨fun hr => ⟨exec_srcEndEos_of_running hr, exec_srcEndReadFail_of_running hr⟩, ?_, fun hr => ?_⟩
  · rintro t hr (ht | ht)
    · cases (exec_srcEndEos_of_running hr).symm.trans ht
      exact halt_enabling s _ _
    · cases (exec_srcEndReadFail_of_running hr).symm.trans ht
      exact halt_enabling s _ _
  · have hen : s.running = false := s.running_eq_false_iff.mpr hr
    exact ⟨exec_of_not_enabled .srcEndEos s rfl hen, exec_of_not_enabled .srcEndReadFail s rfl hen⟩

/-- Settles O31: the state RESET answers is written out in `exec_reset`; a second RESET reads from it only what the
first one kept. -/
theorem resetClearsBlock : Obligations.ResetClearsBlock := fun s =>
  ⟨_, exec_reset s, rfl, rfl, rfl, rfl, rfl, rfl, rfl, rfl, rfl, rfl, rfl, rfl, rfl, rfl, rfl, rfl, rfl, rfl,
    exec_reset _⟩

/-! #### R154: the run-state machine -/

/-- What the run-state machine of R154 speaks of. -/
def State.runStatus (s : State) : RunState × BitVec 3 × Bool := (s.run, s.stopCause, s.out.stopEvent)

/-- R154: the data steps and POP are no transitions of the run-state machine. -/
theorem exec_keeps_runStatus {i : Instr} (s : State) (hl : i.level = .levelH)
    (hi : i ∉ [.startOk, .startFail, .stop, .srcEndEos, .srcEndReadFail, .reset]) :
    ∃ t, exec i s = .next t ∧ t.runStatus = s.runStatus := by
  cases he : s.enabled i with
  | false => exact ⟨s, exec_of_not_enabled i s hl he, rfl⟩
  | true =>
    cases i with
    | portIngest | scanExtract | scanDiscard | decOk | decBad => exact ⟨_, if_pos he, rfl⟩
    | scanWait => exact ⟨s, exec_scanWait s, rfl⟩
    | pop =>
      cases hq : s.outq with
      | nil => exact ⟨s, exec_pop_of_empty s hq, rfl⟩
      | cons smp rest => exact ⟨_, exec_pop_of_cons s smp rest hq, rfl⟩
    | startOk | startFail | stop | srcEndEos | srcEndReadFail | reset => simp at hi
    | frame | ingest | tryExtractFrame | decode => cases hl

/-- Settles O33: the control operations by the run state, the others keep it. -/
theorem runStateMachine : Obligations.RunStateMachine := by
  intro i s hl
  cases i with
  | portIngest | scanExtract | scanDiscard | scanWait | decOk | decBad | pop =>
    exact exec_keeps_runStatus s hl (by simp)
  | startOk =>
    cases hr : s.run with
    | stopped => exact ⟨_, exec_startOk_of_stopped hr, rfl⟩
    | running => exact ⟨s, (exec_start_of_running hr).1, by rw [hr]⟩
  | startFail =>
    cases hr : s.run with
    | stopped => exact ⟨_, exec_startFail_of_stopped hr, congrArg (·, 3, s.out.stopEvent) hr⟩
    | running => exact ⟨s, (exec_start_of_running hr).2, by rw [hr]⟩
  | stop | srcEndEos | srcEndReadFail =>
    cases hr : s.run with
    | stopped => exact ⟨s, exec_of_stopped hl hr (by simp), by rw [hr]⟩
    | running => exact ⟨_, if_pos (s.running_iff.mpr hr), rfl⟩
  | reset => exact ⟨_, exec_reset s, rfl⟩
  | frame | ingest | tryExtractFrame | decode => cases hl

/-! #### Every step answers -/

theorem CallOp.inputs_eq {s t : State} (h : CallOp s t) : t.inputs = s.inputs := by
  cases h with
  | decode p bytes =>
    unfold State.decodeAt
    dsimp only
    split <;> rfl
  | _ => rfl

/-- No operation writes the script; only a fetch takes entries from it. -/
theorem exec_inputs {i : Instr} {s t : State} (h : exec i s = .next t) : t.inputs = s.inputs := by
  by_cases hl : i.level = .levelH
  · exact (Effect.of_exec hl h).inputs_eq
  · exact (CallEffect.of_exec hl h).keeps (P := fun u => u.inputs = s.inputs)
      (fun hop hu => hop.inputs_eq.trans hu) rfl

/-- U3, 93_implementation_defined.md section 3: the only operation that is ever refused is `decode`. -/
theorem exec_answers {i : Instr} (s : State) (h : ∀ bytes, i = .decode bytes → bytes.length = 34) :
    ∃ t, exec i s = .next t := by
  by_cases hl : i.level = .levelH
  · obtain ⟨t, ht, -⟩ := exec_effect i s hl
    exact ⟨t, ht⟩
  · cases i with
    | frame | ingest | tryExtractFrame => exact ⟨_, rfl⟩
    | decode bytes => exact ⟨_, exec_decode_of_length (h bytes rfl) s⟩
    | _ => exact absurd rfl hl

/-- Agents and port events select level-H steps, so a `decode` comes from a call in the script. -/
theorem inputs_of_fetch_decode {s : State} {bytes : List Byte} (h : (fetch s).1 = some (.decode bytes)) :
    ∃ later, s.inputs = .call (.decode bytes) :: later := by
  unfold fetch at h
  split at h
  case h_1 i rest hm =>
    cases h
    cases firstMove_levelH hm
  case h_2 =>
    split at h
    · cases beginCycle_levelH h
    case h_2 c later hi =>
      cases c <;> cases h
      exact ⟨later, hi⟩
    · cases beginCycle_levelH h

theorem callsHaveCandidates_of_suffix {s t : State} (h : t.inputs <:+ s.inputs) (hs : s.callsHaveCandidates = true) :
    t.callsHaveCandidates = true := by
  simp only [State.callsHaveCandidates, List.all_eq_true] at hs ⊢
  exact fun x hx => hs x (h.subset hx)

theorem length_of_fetch_decode {s : State} {bytes : List Byte} (hs : s.callsHaveCandidates = true)
    (h : (fetch s).1 = some (.decode bytes)) : bytes.length = 34 := by
  obtain ⟨later, hi⟩ := inputs_of_fetch_decode h
  simp only [State.callsHaveCandidates, hi, List.all_cons, Bool.and_eq_true, beq_iff_eq] at hs
  exact hs.1

/-- Settles O45: a fetched `decode` is given 34 bytes, everything else always answers, and the script only gets
shorter. -/
theorem everyStepAnswers : Obligations.EveryStepAnswers := by
  intro s hs
  have hu : (fetch s).2.callsHaveCandidates = true := callsHaveCandidates_of_suffix (fetch_inputs_suffix s) hs
  cases hi : (fetch s).1 with
  | none => exact ⟨_, step_of_fetch_none (Prod.ext hi rfl), hu⟩
  | some i =>
    obtain ⟨t, ht⟩ := exec_answers (i := i) (fetch s).2 (by rintro bytes rfl; exact length_of_fetch_decode hs hi)
    exact ⟨t, (step_of_fetch_some (Prod.ext hi rfl)).trans ht,
      callsHaveCandidates_of_suffix (exec_inputs ht ▸ List.suffix_rfl) hu⟩

end Sys2Proof.Machine

/-! ### PUMP against `Scan` -/

namespace Sys2Proof.Machine

/-! #### R170: the recursion of `Scan` -/

theorem scanT_of_good {s : List Byte} (hw : 34 ≤ s.length) (hm : marked s = true)
    (hok : checksumOk (s.take 34) = true) (p : Nat) :
    scanT s p =
      { scanT (s.drop 34) (p + 34) with
        out := sampleOf (s.take 34) :: (scanT (s.drop 34) (p + 34)).out
        trace := .frameOk p (sampleOf (s.take 34)) :: (scanT (s.drop 34) (p + 34)).trace } := by
  rw [← scanFuel_of_le (s.length + 1) s p (by omega), ← scanFuel_of_le s.length (s.drop 34) (p + 34) (by simp)]
  simp [scanFuel, hw.not_gt, hm, hok]

/-- R170: induction along the scan, one case for each way it goes on. -/
theorem scan_induction {P : List Byte → Prop} (short : ∀ s, s.length < 34 → P s)
    (unmarked : ∀ s, 34 ≤ s.length → marked s = false → P (s.drop 1) → P s)
    (good : ∀ s, 34 ≤ s.length → marked s = true → checksumOk (s.take 34) = true → P (s.drop 34) → P s)
    (bad : ∀ s, 34 ≤ s.length → marked s = true → checksumOk (s.take 34) = false → P (s.drop 34) → P s)
    (s : List Byte) : P s := by
  induction hn : s.length using Nat.strong_induction_on generalizing s with
  | h n ih =>
    rcases Nat.lt_or_ge s.length 34 with hs | hw
    · exact short s hs
    · cases hm : marked s with
      | false => exact unmarked s hw hm (ih (n - 1) (by omega) _ (by simp [hn]))
      | true =>
        have hrest : P (s.drop 34) := ih (n - 34) (by omega) _ (by simp [hn])
        cases hc : checksumOk (s.take 34) with
        | true => exact good s hw hm hc hrest
        | false => exact bad s hw hm hc hrest

/-! R170: what each event adds to the counts. -/

@[simp] theorem counts_discard_cons (p : Nat) (t : List ScanEvent) :
    discards (.discard p :: t) = discards t + 1 ∧ frameOks (.discard p :: t) = frameOks t ∧
    csumBads (.discard p :: t) = csumBads t := by
  simp [discards, frameOks, csumBads]

@[simp] theorem counts_frameOk_cons (p : Nat) (smp : Sample) (t : List ScanEvent) :
    discards (.frameOk p smp :: t) = discards t ∧ frameOks (.frameOk p smp :: t) = frameOks t + 1 ∧
    csumBads (.frameOk p smp :: t) = csumBads t := by
  simp [discards, frameOks, csumBads]

@[simp] theorem counts_csumBad_cons (p : Nat) (t : List ScanEvent) :
    discards (.csumBad p :: t) = discards t ∧ frameOks (.csumBad p :: t) = frameOks t ∧
    csumBads (.csumBad p :: t) = csumBads t + 1 := by
  simp [discards, frameOks, csumBads]

@[simp] theorem counts_nil : discards [] = 0 ∧ frameOks [] = 0 ∧ csumBads [] = 0 := ⟨rfl, rfl, rfl⟩

/-- The event `d` bytes further into the stream. -/
def ScanEvent.shift (d : Nat) : ScanEvent → ScanEvent
  | .discard p => .discard (p + d)
  | .frameOk p smp => .frameOk (p + d) smp
  | .csumBad p => .csumBad (p + d)

/-- The result of the same scan `d` bytes further into the stream. -/
def ScanResult.shift (r : ScanResult) (d : Nat) : ScanResult := { r with trace := r.trace.map (ScanEvent.shift d) }

theorem scanT_add (s : List Byte) (p d : Nat) : scanT s (p + d) = (scanT s p).shift d := by
  induction s using scan_induction generalizing p with
  | short s hs => rw [scanT_of_short hs, scanT_of_short hs]; rfl
  | unmarked s hw hm ih =>
    rw [scanT_of_unmarked hw hm, scanT_of_unmarked hw hm, Nat.add_right_comm, ih]
    rfl
  | good s hw hm hok ih =>
    rw [scanT_of_good hw hm hok, scanT_of_good hw hm hok, Nat.add_right_comm, ih]
    rfl
  | bad s hw hm hbad ih =>
    rw [scanT_of_bad hw hm hbad, scanT_of_bad hw hm hbad, Nat.add_right_comm, ih]
    rfl

/-- R170: the start position enters a scan only as the origin of the positions in its trace. -/
theorem scanT_eq_shift (s : List Byte) (p : Nat) : scanT s p = (scan s).shift p := by
  rw [scan, ← scanT_add, Nat.zero_add]

@[simp] theorem counts_map_shift (d : Nat) (t : List ScanEvent) :
    discards (t.map (ScanEvent.shift d)) = discards t ∧ frameOks (t.map (ScanEvent.shift d)) = frameOks t ∧
    csumBads (t.map (ScanEvent.shift d)) = csumBads t := by
  induction t with
  | nil => simp
  | cons e t ih => cases e <;> simp [ScanEvent.shift, ih]

/-- R171: every byte scanned is discarded, part of a window taken, or residue, and the residue is no window. -/
theorem scanT_length (s : List Byte) (p : Nat) :
    (scanT s p).res.length + discards (scanT s p).trace +
      34 * (frameOks (scanT s p).trace + csumBads (scanT s p).trace) = s.length ∧
    (scanT s p).res.length ≤ 33 := by
  induction s using scan_induction generalizing p with
  | short s hs =>
    rw [scanT_of_short hs]
    exact ⟨by simp, Nat.le_of_lt_succ hs⟩
  | unmarked s hw hm ih =>
    obtain ⟨hlen, hres⟩ := ih (p + 1)
    rw [scanT_of_unmarked hw hm]
    exact ⟨by simp at hlen ⊢; omega, hres⟩
  | good s hw hm hok ih =>
    obtain ⟨hlen, hres⟩ := ih (p + 34)
    rw [scanT_of_good hw hm hok]
    exact ⟨by simp at hlen ⊢; omega, hres⟩
  | bad s hw hm hbad ih =>
    obtain ⟨hlen, hres⟩ := ih (p + 34)
    rw [scanT_of_bad hw hm hbad]
    exact ⟨by simp at hlen ⊢; omega, hres⟩

/-! #### R112, R160: a round of PUMP goes on as the scan does -/

theorem tryExtract_of_marked {s : State} (hw : 34 ≤ s.acc.length) (hm : marked s.acc = true) :
    s.tryExtract = s.takeFrame := by
  rw [tryExtract_of_first_marked (k := 0) (by omega) nofun hm, discardN_zero]

theorem tryExtract_of_unmarked {s : State} (hw : 34 ≤ s.acc.length) (hm : marked s.acc = false) :
    s.tryExtract = s.discardHead.tryExtract := by
  have hwin : s.hasWindow = true := s.hasWindow_iff.mpr hw
  obtain ⟨n, hn⟩ : ∃ n, s.acc.length = n + 1 := ⟨s.acc.length - 1, by omega⟩
  simp [State.tryExtract, hn, tryExtractLoop, hwin, hm]

theorem windowOf_take {bytes : List Byte} (hw : 34 ≤ bytes.length) : windowOf (bytes.take 34) = windowOf bytes := by
  rw [← windowOf_toList_self (windowOf bytes), windowOf_toList _ hw]

/-- R160: a window with a good checksum is taken and its sample delivered. -/
def State.pumpGood (s : State) : State :=
  { (s.remove frameLen).emit (sampleOf (s.acc.take frameLen)) with
    nOk := s.nOk + 1, reply := .sample (sampleOf (s.acc.take frameLen)) }

/-- R160, R202: a window with a bad checksum is taken and dropped. -/
def State.pumpBad (s : State) : State :=
  { (s.remove frameLen).countCsumError.record (.csumBad s.pos) with reply := .checksumMismatch }

section
variable {s : State} (fuel : Nat)

theorem pumpLoop_of_short (h : s.acc.length < 34) : pumpLoop (fuel + 1) s = { s with reply := .noFrame } := by
  simp [pumpLoop, State.tryExtract, tryExtractLoop_of_short _ h]

theorem pumpLoop_of_unmarked (hw : 34 ≤ s.acc.length) (hm : marked s.acc = false) :
    pumpLoop (fuel + 1) s = pumpLoop (fuel + 1) s.discardHead := by
  simp only [pumpLoop, tryExtract_of_unmarked hw hm]

theorem pumpLoop_of_marked (hw : 34 ≤ s.acc.length) (hm : marked s.acc = true) :
    pumpLoop (fuel + 1) s = pumpLoop fuel (s.takeFrame.decodeAt s.pos (s.acc.take 34)).deliverReply := by
  simp [pumpLoop, tryExtract_of_marked hw hm, windowOf_toList _ hw]

theorem pumpLoop_of_good (hw : 34 ≤ s.acc.length) (hm : marked s.acc = true)
    (hok : checksumOk (s.acc.take 34) = true) : pumpLoop (fuel + 1) s = pumpLoop fuel s.pumpGood := by
  rw [pumpLoop_of_marked fuel hw hm, decodeAt_of_valid _ _ _ hok, windowOf_take hw]
  simp [State.deliverReply, State.pumpGood, State.emit, State.remove]

theorem pumpLoop_of_bad (hw : 34 ≤ s.acc.length) (hm : marked s.acc = true)
    (hbad : checksumOk (s.acc.take 34) = false) : pumpLoop (fuel + 1) s = pumpLoop fuel s.pumpBad := by
  rw [pumpLoop_of_marked fuel hw hm, decodeAt_of_bad _ _ _ hbad, windowOf_take hw]
  simp [State.deliverReply, State.pumpBad, State.countCsumError, State.record, State.remove]

end

/-! #### PUMP as one scan of the accumulator -/

/-- The event a level-O call records where the scan has this one (log entry 6): it raises errors only. -/
def ScanEvent.raised : ScanEvent → Option Event
  | .discard p => some (.discard p)
  | .frameOk _ _ => none
  | .csumBad p => some (.csumBad p)

/-- R160: the block after a scan of its accumulator with result `r` has been pumped. -/
def State.scanned (s : State) (r : ScanResult) : State :=
  { s with
    acc := r.res
    outq := s.outq ++ r.out
    csumErrCount := (fun n => min (n + 1) (counterMax s.params.diagW))^[csumBads r.trace] s.csumErrCount
    pos := s.pos + (discards r.trace + 34 * (frameOks r.trace + csumBads r.trace))
    nDisc := s.nDisc + discards r.trace
    nOk := s.nOk + frameOks r.trace
    nBad := s.nBad + csumBads r.trace
    hist := s.hist ++ r.trace.filterMap ScanEvent.raised
    reply := .noFrame }

/-! One step of the scan, pumped: the rest of the scan is that of the block after the step. -/

section
variable {s : State}

theorem scanned_of_unmarked (hw : 34 ≤ s.acc.length) (hm : marked s.acc = false) :
    s.scanned (scanT s.acc s.pos) = s.discardHead.scanned (scanT (s.acc.drop 1) (s.pos + 1)) := by
  rw [scanT_of_unmarked hw hm]
  simp [State.scanned, State.discardHead, State.remove, State.record, ScanEvent.raised]
  omega

theorem scanned_of_good (hw : 34 ≤ s.acc.length) (hm : marked s.acc = true)
    (hok : checksumOk (s.acc.take 34) = true) :
    s.scanned (scanT s.acc s.pos) = s.pumpGood.scanned (scanT (s.acc.drop 34) (s.pos + 34)) := by
  rw [scanT_of_good hw hm hok]
  simp [State.scanned, State.pumpGood, State.remove, State.emit]
  exact ⟨by omega, by omega, rfl⟩

theorem scanned_of_bad (hw : 34 ≤ s.acc.length) (hm : marked s.acc = true)
    (hbad : checksumOk (s.acc.take 34) = false) :
    s.scanned (scanT s.acc s.pos) = s.pumpBad.scanned (scanT (s.acc.drop 34) (s.pos + 34)) := by
  rw [scanT_of_bad hw hm hbad]
  simp [State.scanned, State.pumpBad, State.remove, State.record, State.countCsumError, ScanEvent.raised]
  omega

end

/-- PUMP with at least one round more than there are bytes pending is the scan of the accumulator. -/
theorem pumpLoop_eq_scanned {s : State} {fuel : Nat} (hf : s.acc.length ≤ fuel) :
    pumpLoop (fuel + 1) s = s.scanned (scanT s.acc s.pos) := by
  induction ha : s.acc using scan_induction generalizing s fuel with
  | short a hs =>
    subst ha
    rw [pumpLoop_of_short _ hs, scanT_of_short hs]
    simp [State.scanned]
  | unmarked a hw hm ih =>
    subst ha
    rw [pumpLoop_of_unmarked _ hw hm, ih (by simp; omega) rfl, scanned_of_unmarked hw hm]
    rfl
  | good a hw hm hok ih =>
    subst ha
    obtain ⟨n, rfl⟩ : ∃ n, fuel = n + 1 := ⟨fuel - 1, by omega⟩
    rw [pumpLoop_of_good _ hw hm hok, ih (by simp [State.pumpGood]; omega) rfl, scanned_of_good hw hm hok]
    rfl
  | bad a hw hm hbad ih =>
    subst ha
    obtain ⟨n, rfl⟩ : ∃ n, fuel = n + 1 := ⟨fuel - 1, by omega⟩
    rw [pumpLoop_of_bad _ hw hm hbad, ih (by simp [State.pumpBad]; omega) rfl, scanned_of_bad hw hm hbad]
    rfl

/-- R160, R170: PUMP appends its bytes and is then one scan of the accumulator from the block's position. -/
theorem pump_eq_scanned (s : State) (bytes : List Byte) :
    s.pump bytes = (s.ingestAll bytes).scanned ((scan (s.acc ++ bytes)).shift s.pos) := by
  rw [State.pump, pumpLoop_eq_scanned le_rfl, scanT_eq_shift]
  rfl

/-- Settles O16: PUMP is `State.scanned`, whose fields are read off; the balance is that of `scanT_length`. -/
theorem pumpDeliversScan : Obligations.PumpDeliversScan := by
  intro s bytes
  obtain ⟨hlen, hres⟩ := scanT_length (s.acc ++ bytes) 0
  obtain ⟨hd, ho, hb⟩ := counts_map_shift s.pos (scan (s.acc ++ bytes)).trace
  rw [pump_eq_scanned]
  refine ⟨rfl, rfl, rfl, congrArg (s.nDisc + ·) hd, congrArg (s.nOk + ·) ho, congrArg (s.nBad + ·) hb, ?_, hres,
    rfl, rfl, rfl, rfl, rfl, rfl, rfl, rfl, rfl⟩
  rw [← scan, List.length_append] at hlen
  simp [State.scanned, ScanResult.shift]
  omega

/-! #### R160, R176: one frame -/

theorem scan_frameBytes_of_good {f : FrameFields} (h : xor8 (frameBody f.payload f.reserved) = f.checksum) :
    scan (frameBytes f) = { out := [f.payload], res := [], trace := [.frameOk 0 f.payload] } := by
  have hok : checksumOk ((frameBytes f).take 34) = true := (checksumOk_iff _).mpr h
  have hrest : (frameBytes f).drop 34 = [] := rfl
  have hall : (frameBytes f).take 34 = frameBytes f := rfl
  rw [scan, scanT_of_good (length_frameBytes f).ge (marked_frameBytes f) hok, hrest, scanT_of_short (by decide), hall,
    sampleOf_frameBytes]

theorem scan_frameBytes_of_bad {f : FrameFields} (h : xor8 (frameBody f.payload f.reserved) ≠ f.checksum) :
    scan (frameBytes f) = { out := [], res := [], trace := [.csumBad 0] } := by
  have hbad : checksumOk ((frameBytes f).take 34) = false := Bool.eq_false_iff.mpr (mt (checksumOk_iff _).mp h)
  have hrest : (frameBytes f).drop 34 = [] := rfl
  rw [scan, scanT_of_bad (length_frameBytes f).ge (marked_frameBytes f) hbad, hrest, scanT_of_short (by decide)]

theorem exec_frame (f : FrameFields) (s : State) : exec (.frame f) s = .next (s.pump (frameBytes f)) := rfl

/-- Settles O18: presenting a frame is PUMP (`exec_frame`), and the scan of one frame is its one event. -/
theorem frameIsPumped : Obligations.FrameIsPumped := by
  intro s f
  obtain ⟨hacc, hout, hin, -⟩ := pumpDeliversScan s (frameBytes f)
  refine ⟨⟨_, exec_frame f s, hacc, hout, hin⟩, fun hempty hsum => ?_, fun hempty hsum => ?_⟩
  · rw [exec_frame, pump_eq_scanned, hempty, List.nil_append, scan_frameBytes_of_good hsum]
    simp [State.scanned, ScanResult.shift, ScanEvent.shift, ScanEvent.raised]
  · rw [exec_frame, pump_eq_scanned, hempty, List.nil_append, scan_frameBytes_of_bad hsum]
    simp [State.scanned, ScanResult.shift, ScanEvent.shift, ScanEvent.raised, counterMax]

end Sys2Proof.Machine

/-! ### The laws of `Scan` -/

namespace Sys2Proof.Machine

/-! #### R170: the defining equations -/

/-- R132: the test on a window reads no byte behind it. -/
theorem checksumOk_take_iff (s : List Byte) : checksumOk (s.take 34) = true ↔ xor8 (s.take 33) = s.getD 33 0 := by
  simp [checksumOk_iff, List.take_take, List.getD_eq_getElem?_getD]

theorem marked_eq_false_iff (bytes : List Byte) : marked bytes = false ↔ bytes.take 3 ≠ marker := by
  rw [← Bool.not_eq_true, marked_iff]

/-- Settles O55: the four equations of `scanT`, with the marker and the checksum written out. -/
theorem scanEquation : Obligations.ScanEquation := by
  intro s p
  refine ⟨fun h => scanT_of_short h p, fun hw hm hok => ?_, fun hw hm hbad => ?_, fun hw hm => ?_⟩
  · exact scanT_of_good hw ((marked_iff s).mpr hm) ((checksumOk_take_iff s).mpr hok) p
  · exact scanT_of_bad hw ((marked_iff s).mpr hm) (Bool.eq_false_iff.mpr (mt (checksumOk_take_iff s).mp hbad)) p
  · exact scanT_of_unmarked hw ((marked_eq_false_iff s).mpr hm) p

/-! #### One step of `Scan`, without positions -/

theorem scan_of_short {s : List Byte} (h : s.length < 34) : scan s = { out := [], res := s, trace := [] } :=
  scanT_of_short h 0

/-- What a window taken as a frame emits (R132, R138, R139). -/
def samplesOf (f : List Byte) : List Sample := if checksumOk f then [sampleOf f] else []

section
variable {a : List Byte} (hw : 34 ≤ a.length) (b : List Byte)
include hw

/-- R170: an unmarked window costs one byte. -/
theorem scan_append_of_unmarked (hm : marked a = false) :
    (scan (a ++ b)).out = (scan (a.drop 1 ++ b)).out ∧ (scan (a ++ b)).res = (scan (a.drop 1 ++ b)).res ∧
    discards (scan (a ++ b)).trace = discards (scan (a.drop 1 ++ b)).trace + 1 ∧
    frameOks (scan (a ++ b)).trace = frameOks (scan (a.drop 1 ++ b)).trace ∧
    csumBads (scan (a ++ b)).trace = csumBads (scan (a.drop 1 ++ b)).trace := by
  have hab : scan (a ++ b) = _ :=
    scanT_of_unmarked (by simp; omega) ((marked_append a b (by simp; omega)).trans hm) 0
  rw [hab, List.drop_append_of_le_length (by omega), scanT_eq_shift]
  simp [ScanResult.shift]

/-- R170: a marked window is taken whole, and its checksum decides whether it is emitted. -/
theorem scan_append_of_marked (hm : marked a = true) :
    (scan (a ++ b)).out = samplesOf (a.take 34) ++ (scan (a.drop 34 ++ b)).out ∧
    (scan (a ++ b)).res = (scan (a.drop 34 ++ b)).res ∧
    discards (scan (a ++ b)).trace = discards (scan (a.drop 34 ++ b)).trace ∧
    frameOks (scan (a ++ b)).trace = (checksumOk (a.take 34)).toNat + frameOks (scan (a.drop 34 ++ b)).trace ∧
    csumBads (scan (a ++ b)).trace = (!checksumOk (a.take 34)).toNat + csumBads (scan (a.drop 34 ++ b)).trace := by
  have hw' : 34 ≤ (a ++ b).length := by simp; omega
  have hm' : marked (a ++ b) = true := (marked_append a b (by simp; omega)).trans hm
  have htake : (a ++ b).take 34 = a.take 34 := List.take_append_of_le_length hw
  have hdrop : (a ++ b).drop 34 = a.drop 34 ++ b := List.drop_append_of_le_length hw
  cases hc : checksumOk (a.take 34) with
  | true =>
    have hab : scan (a ++ b) = _ := scanT_of_good hw' hm' (htake ▸ hc) 0
    rw [hab, htake, hdrop, scanT_eq_shift]
    simp [samplesOf, hc, ScanResult.shift, Nat.add_comm]
  | false =>
    have hab : scan (a ++ b) = _ := scanT_of_bad hw' hm' (htake ▸ hc) 0
    rw [hab, hdrop, scanT_eq_shift]
    simp [samplesOf, hc, ScanResult.shift, Nat.add_comm]

end

/-! #### From one window to the next -/

/-- R178: how far a scan moves from a window. -/
def scanStride (w : List Byte) : Nat := if marked w then 34 else 1

theorem scanStride_of_marked {w : List Byte} (h : marked w = true) : scanStride w = 34 := if_pos h

theorem scanStride_of_unmarked {w : List Byte} (h : marked w = false) : scanStride w = 1 := by simp [scanStride, h]

theorem scanStride_pos (w : List Byte) : 0 < scanStride w := by
  unfold scanStride
  split <;> decide

/-- The position at which an event happens. -/
def ScanEvent.pos : ScanEvent → Nat
  | .discard p => p
  | .frameOk p _ => p
  | .csumBad p => p

/-- R170: a scan of a whole window has one event there and goes on at the next window. -/
theorem scanT_of_window {s : List Byte} (hw : 34 ≤ s.length) (p : Nat) :
    ∃ e : ScanEvent, e.pos = p ∧
      (scanT s p).trace = e :: (scanT (s.drop (scanStride s)) (p + scanStride s)).trace ∧
      (scanT s p).res = (scanT (s.drop (scanStride s)) (p + scanStride s)).res := by
  cases hm : marked s with
  | false =>
    rw [scanStride_of_unmarked hm, scanT_of_unmarked hw hm]
    exact ⟨_, rfl, rfl, rfl⟩
  | true =>
    rw [scanStride_of_marked hm]
    cases hc : checksumOk (s.take 34) with
    | true =>
      rw [scanT_of_good hw hm hc]
      exact ⟨_, rfl, rfl, rfl⟩
    | false =>
      rw [scanT_of_bad hw hm hc]
      exact ⟨_, rfl, rfl, rfl⟩

/-- Induction from window to window, where it does not matter how the scan goes on. -/
theorem window_induction {P : List Byte → Prop} (short : ∀ s, s.length < 34 → P s)
    (window : ∀ s, 34 ≤ s.length → P (s.drop (scanStride s)) → P s) (s : List Byte) : P s := by
  induction s using scan_induction with
  | short s hs => exact short s hs
  | unmarked s hw hm ih => exact window s hw (by rwa [scanStride_of_unmarked hm])
  | good s hw hm _ ih | bad s hw hm _ ih => exact window s hw (by rwa [scanStride_of_marked hm])

/-! #### R171, R172: residue and incrementality -/

theorem scanT_res_suffix (s : List Byte) (p : Nat) : (scanT s p).res <:+ s := by
  induction s using window_induction generalizing p with
  | short s hs => rw [scanT_of_short hs]
  | window s hw ih =>
    obtain ⟨-, -, -, hres⟩ := scanT_of_window hw p
    exact hres ▸ (ih _).trans (List.drop_suffix _ s)

theorem scanT_out_length (s : List Byte) (p : Nat) : (scanT s p).out.length = frameOks (scanT s p).trace := by
  induction s using scan_induction generalizing p with
  | short s hs => simp [scanT_of_short hs]
  | unmarked s hw hm ih => simpa [scanT_of_unmarked hw hm] using ih (p + 1)
  | good s hw hm hok ih => simp [scanT_of_good hw hm hok, ih]
  | bad s hw hm hbad ih => simp [scanT_of_bad hw hm hbad, ih]

/-- Settles O56: the balance is `scanT_length`, from which the bound on the samples follows. -/
theorem scanBasicFacts : Obligations.ScanBasicFacts := by
  intro s
  obtain ⟨hbalance, hres⟩ := scanT_length s 0
  have hout := scanT_out_length s 0
  rw [← scan] at hbalance hres hout
  exact ⟨hres, scanT_res_suffix s 0, fun hs => by simp [scan_of_short hs], by omega, hout, by omega⟩

/-- R172: what is left of `a` decides how the scan goes on. -/
theorem scan_append (a b : List Byte) :
    (scan (a ++ b)).out = (scan a).out ++ (scan ((scan a).res ++ b)).out ∧
    (scan (a ++ b)).res = (scan ((scan a).res ++ b)).res := by
  induction a using scan_induction with
  | short a hs => simp [scan_of_short hs]
  | unmarked a hw hm ih =>
    obtain ⟨hout, hres, -⟩ := scan_append_of_unmarked hw b hm
    obtain ⟨hout', hres', -⟩ := scan_append_of_unmarked hw [] hm
    rw [List.append_nil, List.append_nil] at hout' hres'
    rwa [hout, hres, hout', hres']
  | good a hw hm _ ih | bad a hw hm _ ih =>
    obtain ⟨hout, hres, -⟩ := scan_append_of_marked hw b hm
    obtain ⟨hout', hres', -⟩ := scan_append_of_marked hw [] hm
    rw [List.append_nil, List.append_nil] at hout' hres'
    rw [hout, hres, hout', hres', List.append_assoc, ih.1]
    exact ⟨rfl, ih.2⟩

/-- Settles O57: `scan_append`. -/
theorem scanIsIncremental : Obligations.ScanIsIncremental := scan_append

/-! #### R173: PUMP in chunks -/

/-- R173, from an accumulator that holds no whole window. -/
theorem foldl_pump {s : State} (hs : s.acc.length < 34) (chunks : List (List Byte)) :
    (chunks.foldl State.pump s).outq = s.outq ++ (scan (s.acc ++ chunks.flatten)).out ∧
    (chunks.foldl State.pump s).acc = (scan (s.acc ++ chunks.flatten)).res := by
  induction chunks generalizing s with
  | nil => simp [scan_of_short hs]
  | cons c chunks ih =>
    obtain ⟨hacc, hout, -⟩ := pumpDeliversScan s c
    obtain ⟨hres, -⟩ := scanBasicFacts (s.acc ++ c)
    obtain ⟨hout', hres'⟩ := scan_append (s.acc ++ c) chunks.flatten
    rw [List.foldl_cons, List.flatten_cons, ← List.append_assoc, hout', hres', ← List.append_assoc, ← hout,
      ← hacc]
    exact ih (by rw [hacc]; omega)

/-- Settles O17: `foldl_pump` from an empty accumulator. -/
theorem chunkingDoesNotAffectOutput : Obligations.ChunkingDoesNotAffectOutput := by
  intro s chunks hs
  simpa [hs] using foldl_pump (s := s) (by simp [hs]) chunks

/-! #### R176: the concrete scenario -/

/-- The frame of vector V1. -/
def frameV1 : FrameFields :=
  { payload := { gx := 0x3F800000, gy := 0, gz := 0, ax := 0, ay := 0, az := 0x411CCCCD }
    reserved := 0
    checksum := 0x8F }

/-- Settles O19: the bytes are those of `frameV1`, whose checksum is right. -/
theorem concreteScenario : Obligations.ConcreteScenario := by
  intro s hs
  have hbytes : [0xBD, 0xDB, 0x0A] ++ [0x00, 0x00, 0x80, 0x3F] ++ List.replicate 16 0x00 ++ [0xCD, 0xCC, 0x1C, 0x41] ++
      List.replicate 6 0x00 ++ [0x8F] = frameBytes frameV1 := by decide
  have hsum : xor8 (frameBody frameV1.payload frameV1.reserved) = frameV1.checksum := by decide
  obtain ⟨-, hout, -⟩ := pumpDeliversScan s (frameBytes frameV1)
  rw [hbytes, hout, hs, List.nil_append, scan_frameBytes_of_good hsum]
  rfl

/-! #### R141, R179: frames back to back -/

theorem samplesOf_frameBytes (f : FrameFields) :
    samplesOf (frameBytes f) = if xor8 (frameBody f.payload f.reserved) == f.checksum then [f.payload] else [] := by
  rw [samplesOf, sampleOf_frameBytes]
  rfl

/-- R179: a scan that meets the start of a frame takes it whole. -/
theorem scan_frameBytes_append (f : FrameFields) (rest : List Byte) :
    (scan (frameBytes f ++ rest)).out = samplesOf (frameBytes f) ++ (scan rest).out ∧
    (scan (frameBytes f ++ rest)).res = (scan rest).res ∧
    discards (scan (frameBytes f ++ rest)).trace = discards (scan rest).trace := by
  obtain ⟨hout, hres, hdisc, -⟩ := scan_append_of_marked (length_frameBytes f).ge rest (marked_frameBytes f)
  exact ⟨hout, hres, hdisc⟩

/-- Settles O58: frame by frame. -/
theorem lockIsKeptOverFrames : Obligations.LockIsKeptOverFrames := by
  intro frames rest
  induction frames with
  | nil => exact ⟨rfl, rfl, rfl⟩
  | cons f frames ih =>
    obtain ⟨ihout, ihres, ihdisc⟩ := ih
    obtain ⟨hout, hres, hdisc⟩ := scan_frameBytes_append f (frames.flatMap frameBytes ++ rest)
    rw [List.flatMap_cons, List.append_assoc]
    refine ⟨?_, hres.trans ihres, hdisc.trans ihdisc⟩
    rw [hout, ihout, samplesOf_frameBytes, List.filter_cons]
    split <;> rfl

end Sys2Proof.Machine

/-! ### A frame behind other bytes -/

namespace Sys2Proof.Machine

/-! #### R178: the positions a scan visits -/

section
variable {s : List Byte} {p q : Nat}

theorem Visits.next (h : Visits s p) (hw : 34 ≤ (s.drop p).length) : Visits s (p + scanStride (s.drop p)) := by
  cases hm : marked (s.drop p) with
  | true => exact scanStride_of_marked hm ▸ h.extract p hw hm
  | false => exact scanStride_of_unmarked hm ▸ h.discard p hw hm

/-- A scan comes to a position from the one visited before it. -/
theorem Visits.eq_zero_or_next (h : Visits s q) : q = 0 ∨ ∃ p, Visits s p ∧ q = p + scanStride (s.drop p) := by
  cases h with
  | start => exact .inl rfl
  | discard p hp _ hm => exact .inr ⟨p, hp, by rw [scanStride_of_unmarked hm]⟩
  | extract p hp _ hm => exact .inr ⟨p, hp, by rw [scanStride_of_marked hm]⟩

/-- A scan visits nothing between a position and the next. -/
theorem Visits.add_stride_le (hq : Visits s q) (hp : Visits s p) (hlt : p < q) : p + scanStride (s.drop p) ≤ q := by
  induction q using Nat.strong_induction_on generalizing p with
  | h q ih =>
    obtain rfl | ⟨r, hr, rfl⟩ := hq.eq_zero_or_next
    · omega
    · rcases Nat.lt_trichotomy p r with h | rfl | h
      · have hstep := scanStride_pos (s.drop r)
        have hstop := ih r (by omega) hr hp h
        omega
      · exact le_rfl
      · have hstop := ih p hlt hp hr h
        omega

/-- Every position whose window is whole is visited, or passed over from a visited one. -/
theorem exists_visited_covering (hw : q + 34 ≤ s.length) :
    ∃ p, Visits s p ∧ p ≤ q ∧ q < p + scanStride (s.drop p) := by
  induction q with
  | zero => exact ⟨0, .start, le_rfl, by simpa using scanStride_pos s⟩
  | succ q ih =>
    obtain ⟨p, hp, hle, hlt⟩ := ih (by omega)
    rcases Nat.lt_or_ge (q + 1) (p + scanStride (s.drop p)) with h | h
    · exact ⟨p, hp, by omega, h⟩
    · have heq : p + scanStride (s.drop p) = q + 1 := by omega
      exact ⟨q + 1, heq ▸ hp.next (by simp; omega), le_rfl, Nat.lt_add_of_pos_right (scanStride_pos _)⟩

/-- R178: a position is not visited exactly when a marked window swallows it. -/
theorem not_visits_iff_swallowed (hw : q + 34 ≤ s.length) :
    ¬Visits s q ↔ ∃ p, Visits s p ∧ p < q ∧ q < p + 34 ∧ marked (s.drop p) = true := by
  refine ⟨fun hq => ?_, ?_⟩
  · obtain ⟨p, hp, hle, hlt⟩ := exists_visited_covering hw
    have hne : p ≠ q := fun h => hq (h ▸ hp)
    cases hm : marked (s.drop p) with
    | true => exact ⟨p, hp, by omega, by rwa [scanStride_of_marked hm] at hlt, hm⟩
    | false => rw [scanStride_of_unmarked hm] at hlt; omega
  · rintro ⟨p, hp, hlt, hswallow, hm⟩ hq
    have hstop := hq.add_stride_le hp hlt
    rw [scanStride_of_marked hm] at hstop
    exact hstop.not_gt hswallow

/-! #### R178: the trace and the visited positions -/

/-- From a visited position on the scan goes as it would alone. -/
theorem Visits.trace_suffix (h : Visits s p) : (scanT (s.drop p) p).trace <:+ (scan s).trace := by
  induction h with
  | start => exact List.suffix_rfl
  | discard p _ hw hm ih =>
    obtain ⟨e, -, htrace, -⟩ := scanT_of_window hw p
    rw [htrace, scanStride_of_unmarked hm, List.drop_drop] at ih
    exact (List.suffix_cons e _).trans ih
  | extract p _ hw hm ih =>
    obtain ⟨e, -, htrace, -⟩ := scanT_of_window hw p
    rw [htrace, scanStride_of_marked hm, List.drop_drop] at ih
    exact (List.suffix_cons e _).trans ih

/-- Events happen at visited positions. -/
theorem Visits.pos_of_mem (h : Visits s p) {e : ScanEvent} (he : e ∈ (scanT (s.drop p) p).trace) :
    Visits s e.pos := by
  induction hd : s.drop p using window_induction generalizing p with
  | short w hs => simp [hd, scanT_of_short hs] at he
  | window w hw ih =>
    subst hd
    obtain ⟨e₀, rfl, htrace, -⟩ := scanT_of_window hw p
    rw [htrace, List.mem_cons, List.drop_drop] at he
    obtain rfl | he := he
    · exact h
    · exact ih (h.next hw) he List.drop_drop.symm

theorem visits_of_mem_trace {e : ScanEvent} (he : e ∈ (scan s).trace) : Visits s e.pos :=
  Visits.pos_of_mem .start he

/-- R178: a valid frame whose start is visited is emitted there. -/
theorem Visits.frameOk_mem {smp : Sample} {reserved : BitVec 48} {rest : List Byte} (h : Visits s p)
    (hs : s.drop p = frameBytes (validFrame smp reserved) ++ rest) : ScanEvent.frameOk p smp ∈ (scan s).trace := by
  have hw : 34 ≤ (s.drop p).length := by simp [hs]
  have hm : marked (s.drop p) = true := by rw [hs]; rfl
  have htake : (s.drop p).take 34 = frameBytes (validFrame smp reserved) := by rw [hs]; rfl
  have hok : checksumOk ((s.drop p).take 34) = true := htake ▸ checksumOk_validFrame smp reserved
  refine h.trace_suffix.subset ?_
  rw [scanT_of_good hw hm hok, htake, sampleOf_frameBytes]
  exact List.mem_cons_self

end

/-- R178: bytes that nowhere begin a marked window go one by one. -/
theorem scan_append_of_garbage {garbage w : List Byte} (hw : 34 ≤ w.length)
    (hm : ∀ p, p < garbage.length → marked ((garbage ++ w).drop p) = false) :
    (scan (garbage ++ w)).out = (scan w).out ∧ (scan (garbage ++ w)).res = (scan w).res := by
  induction garbage with
  | nil => exact ⟨rfl, rfl⟩
  | cons b garbage ih =>
    have hhead : marked (b :: garbage ++ w) = false := hm 0 (by simp)
    obtain ⟨hout, hres, -⟩ := scan_append_of_unmarked (by simp; omega) [] hhead
    rw [List.append_nil, List.append_nil] at hout hres
    obtain ⟨ihout, ihres⟩ := ih fun p hp => hm (p + 1) (by simpa using hp)
    exact ⟨hout.trans ihout, hres.trans ihres⟩

theorem samplesOf_validFrame (smp : Sample) (reserved : BitVec 48) :
    samplesOf (frameBytes (validFrame smp reserved)) = [smp] := by
  rw [samplesOf, checksumOk_validFrame, sampleOf_frameBytes]
  rfl

/-- Settles O59: events happen where the scan has been (`visits_of_mem_trace`), and a position that is not visited is
swallowed (`not_visits_iff_swallowed`). -/
theorem genuineFrameIsFoundIffVisited : Obligations.GenuineFrameIsFoundIffVisited := by
  intro garbage rest smp reserved f s
  have hs : s = garbage ++ (f ++ rest) := List.append_assoc garbage f rest
  have hdrop : s.drop garbage.length = f ++ rest := by rw [hs, List.drop_left]
  have hw : garbage.length + 34 ≤ s.length := by simp [hs, f]
  refine ⟨⟨visits_of_mem_trace, fun hq => hq.frameOk_mem hdrop⟩, not_visits_iff_swallowed hw, fun hm => ?_⟩
  rw [hs] at hm ⊢
  obtain ⟨hout, hres⟩ := scan_append_of_garbage (by simp [f]) hm
  obtain ⟨hout', hres', -⟩ := scan_frameBytes_append (validFrame smp reserved) rest
  rw [samplesOf_validFrame] at hout'
  exact ⟨hout.trans hout', hres.trans hres'⟩

end Sys2Proof.Machine

/-! ### The block against `Scan` -/

namespace Sys2Proof.Machine

/-! #### R183: when SYNC and DEC hold -/

theorem State.qFull_iff (s : State) : s.qFull = true ↔ ∃ c, s.params.qCap = some c ∧ c ≤ s.outq.length := by
  rw [← Bool.not_eq_false, State.qFull_eq_false_iff]
  simp

/-- R113: with a free slot SYNC holds for want of bytes only. -/
theorem sync_holds_iff {s : State} (hr : s.run = .running) (hv : s.candValid = false) :
    (s.canExtract = false ∧ s.canDiscard = false) ↔ s.acc.length < 34 := by
  rw [← Bool.not_eq_true, ← Bool.not_eq_true, State.canExtract_iff, State.canDiscard_iff]
  cases marked s.acc <;> simp [hr, hv]

/-- R137: with a candidate DEC holds only if the candidate is good and the queue full. -/
theorem dec_holds_iff {s : State} (hr : s.run = .running) (hv : s.candValid = true) :
    (s.canDecOk = false ∧ s.canDecBad = false) ↔ checksumOk s.candBytes = true ∧ s.qFull = true := by
  rw [← Bool.not_eq_true, ← Bool.not_eq_true, State.canDecOk_iff, State.canDecBad_iff]
  cases checksumOk s.candBytes <;> simp [hr, hv]

/-- Settles O37: the slot says which of SYNC and DEC is concerned. -/
theorem runningBlockHoldsOnlyForBytesOrSink : Obligations.RunningBlockHoldsOnlyForBytesOrSink := by
  intro s hr
  cases hv : s.candValid with
  | false =>
    have hdec : s.canDecOk = false ∧ s.canDecBad = false := by simp [State.canDecOk, State.canDecBad, hv]
    simp [← and_assoc, sync_holds_iff hr hv, hdec]
  | true =>
    have hsync : s.canExtract = false ∧ s.canDiscard = false := by
      simp [State.canExtract, State.canDiscard, State.scanFree, hv]
    simp [hsync, dec_holds_iff hr hv, State.qFull_iff]

theorem agentInstr_of_firstMove_none {s : State} {agents : List Agent} (h : firstMove s agents = none) :
    ∀ a ∈ agents, agentInstr s a = none := by
  induction agents with
  | nil => nofun
  | cons a as ih =>
    simp only [firstMove] at h
    split at h
    case h_1 => cases h
    case h_2 ha => exact List.forall_mem_cons.mpr ⟨ha, ih h⟩

theorem not_enabled_of_firstMove_none {s : State} (h : firstMove s [.dec, .sync] = none) :
    s.canExtract = false ∧ s.canDiscard = false ∧ s.canDecOk = false ∧ s.canDecBad = false := by
  have hdec : agentInstr s .dec = none := agentInstr_of_firstMove_none h _ (by simp)
  have hsync : agentInstr s .sync = none := agentInstr_of_firstMove_none h _ (by simp)
  simp only [agentInstr, ite_eq_right_iff, reduceCtorEq, imp_false, Bool.not_eq_true, Bool.or_eq_false_iff]
    at hdec hsync
  exact ⟨by simp [State.canExtract, hsync], by simp [State.canDiscard, hsync], hdec⟩

/-! #### R92: the steps of SYNC and DEC -/

/-- What a step of SYNC or DEC that is enabled does to the block (R114, R115, R138, R139). -/
inductive Work (s : State) : State → Prop
  | extract (h : s.canExtract = true) :
    Work s { (s.record (.extract s.pos)).remove frameLen with cand := windowOf s.acc, candValid := true }
  | discard (h : s.canDiscard = true) : Work s { s.discardHead with out := { s.out with evMarkerMismatch := true } }
  | decOk (h : s.canDecOk = true) :
    Work s { (s.emit (sampleOf s.candBytes)).record (.frameOk s.candPos (sampleOf s.candBytes)) with
             candValid := false, nOk := s.nOk + 1, out := { s.out with evFrameOk := true } }
  | decBad (h : s.canDecBad = true) :
    Work s { s.countCsumError.record (.csumBad s.candPos) with
             candValid := false, out := { s.out with evCsumMismatch := true } }

theorem Work.of_exec {i : Instr} {s t : State} (hi : i ∈ drainSteps) (he : s.enabled i = true)
    (h : exec i s = .next t) : Work s t := by
  simp only [drainSteps, List.mem_cons, List.not_mem_nil, or_false] at hi
  obtain rfl | rfl | rfl | rfl := hi
  · cases (exec_scanDiscard_of_enabled he).symm.trans h
    exact .discard he
  · cases (exec_scanExtract_of_enabled he).symm.trans h
    exact .extract he
  · have hx : exec .decOk s = _ := if_pos he
    cases hx.symm.trans h
    exact .decOk he
  · have hx : exec .decBad s = _ := if_pos he
    cases hx.symm.trans h
    exact .decBad he

/-- R64, R92: work changes neither the parameters nor the run state, and takes no byte in. -/
theorem Work.frame {s t : State} (h : Work s t) :
    t.params = s.params ∧ t.run = s.run ∧ t.nIn = s.nIn ∧ ingested t.hist = ingested s.hist := by
  cases h <;> exact ⟨rfl, rfl, rfl, by simp [ingested]⟩

/-- R138: what work emits it hands to the queue. -/
theorem Work.emits {s t : State} (h : Work s t) :
    ∃ new, emitted t.hist = emitted s.hist ++ new ∧ t.outq = s.outq ++ new := by
  cases h with
  | extract => exact ⟨[], by simp [emitted], by simp⟩
  | discard => exact ⟨[], by simp [emitted], by simp⟩
  | decOk => exact ⟨[sampleOf s.candBytes], by simp, rfl⟩
  | decBad => exact ⟨[], by simp [emitted], by simp⟩

/-- R119, R183: an upper bound on the steps of SYNC and DEC to come. -/
def State.workLeft (s : State) : Nat := 2 * s.acc.length + s.candValid.toNat

theorem Work.workLeft_lt {s t : State} (h : Work s t) : t.workLeft < s.workLeft := by
  cases h with
  | extract hc =>
    obtain ⟨-, hv, hw, -⟩ := s.canExtract_iff.mp hc
    simp [State.workLeft, hv]
    omega
  | discard hc =>
    obtain ⟨-, hv, hw, -⟩ := s.canDiscard_iff.mp hc
    simp [State.workLeft, hv]
    omega
  | decOk hc =>
    obtain ⟨-, hv, -⟩ := s.canDecOk_iff.mp hc
    simp [State.workLeft, hv]
  | decBad hc =>
    obtain ⟨-, hv, -⟩ := s.canDecBad_iff.mp hc
    simp [State.workLeft, hv]

/-! #### R174, R181: what the block will have emitted in the end -/

/-- What R174 and R181 say of a block once it has nothing left to scan or decode. -/
structure Forecast where
  emitted : List Sample
  residue : List Byte
  nIn : Nat
  nDisc : Nat
  nOk : Nat
  nBad : Nat

/-- R174: the forecast for a block that is yet to be fed `bytes`: beside what it has done already, its candidate is
decoded and its accumulator scanned together with the bytes. -/
def State.forecast (s : State) (bytes : List Byte) : Forecast where
  emitted := Machine.emitted s.hist ++ s.pending ++ (scan (s.acc ++ bytes)).out
  residue := (scan (s.acc ++ bytes)).res
  nIn := s.nIn + bytes.length
  nDisc := s.nDisc + discards (scan (s.acc ++ bytes)).trace
  nOk := s.nOk + (s.candValid && checksumOk s.candBytes).toNat + frameOks (scan (s.acc ++ bytes)).trace
  nBad := s.nBad + (s.candValid && !checksumOk s.candBytes).toNat + csumBads (scan (s.acc ++ bytes)).trace

/-- R174: without a candidate the forecast is `Scan` of what is pending and what is to be fed. -/
theorem forecast_of_empty_slot {s : State} (hv : s.candValid = false) (bytes : List Byte) :
    s.forecast bytes =
      { emitted := emitted s.hist ++ (scan (s.acc ++ bytes)).out
        residue := (scan (s.acc ++ bytes)).res
        nIn := s.nIn + bytes.length
        nDisc := s.nDisc + discards (scan (s.acc ++ bytes)).trace
        nOk := s.nOk + frameOks (scan (s.acc ++ bytes)).trace
        nBad := s.nBad + csumBads (scan (s.acc ++ bytes)).trace } := by
  simp [State.forecast, pending_of_empty_slot hv, hv]

theorem State.drained_iff (s : State) : s.drained = true ↔ s.candValid = false ∧ s.acc.length < 34 := by
  simp [State.drained, State.hasWindow]

/-- R181: for a drained block the forecast has come true. -/
theorem forecast_of_drained {s : State} (h : s.drained = true) :
    s.forecast [] =
      { emitted := emitted s.hist
        residue := s.acc
        nIn := s.nIn
        nDisc := s.nDisc
        nOk := s.nOk
        nBad := s.nBad } := by
  obtain ⟨hv, hs⟩ := s.drained_iff.mp h
  rw [forecast_of_empty_slot hv, List.append_nil, scan_of_short hs]
  simp

theorem forecast_ingest (s : State) (b : Byte) (bytes : List Byte) :
    ((s.append b).record (.ingest b)).forecast bytes = s.forecast (b :: bytes) := by
  simp [State.forecast, State.pending, emitted, Nat.add_assoc, Nat.add_comm]

theorem forecast_pop (s : State) (smp : Sample) (rest : List Sample) (out : CycleOut) (bytes : List Byte) :
    ({ s.record (.pop smp) with outq := rest, out := out } : State).forecast bytes = s.forecast bytes := by
  simp [State.forecast, State.pending, State.candBytes]

/-- R181: a step of SYNC or DEC does what the forecast has foreseen. -/
theorem Work.forecast_eq {s t : State} (h : Work s t) (bytes : List Byte) : t.forecast bytes = s.forecast bytes := by
  cases h with
  | extract hc =>
    obtain ⟨-, hv, hw, hm⟩ := s.canExtract_iff.mp hc
    obtain ⟨hout, hres, hdisc, hok, hbad⟩ := scan_append_of_marked hw bytes hm
    have hcand : (windowOf s.acc).toList = s.acc.take 34 := windowOf_toList s.acc hw
    rw [forecast_of_empty_slot hv, hout, hres, hdisc, hok, hbad]
    simp [State.forecast, State.pending, State.candBytes, hcand, samplesOf, emitted, Nat.add_assoc]
  | discard hc =>
    obtain ⟨-, hv, hw, hm⟩ := s.canDiscard_iff.mp hc
    obtain ⟨hout, hres, hdisc, hok, hbad⟩ := scan_append_of_unmarked hw bytes hm
    rw [forecast_of_empty_slot hv, hout, hres, hdisc, hok, hbad]
    simp [State.forecast, State.pending, hv, emitted, Nat.add_assoc, Nat.add_comm]
  | decOk hc =>
    obtain ⟨-, hv, hsum, -⟩ := s.canDecOk_iff.mp hc
    rw [forecast_of_empty_slot rfl]
    simp [State.forecast, State.pending, hv, hsum]
  | decBad hc =>
    obtain ⟨-, hv, hsum⟩ := s.canDecBad_iff.mp hc
    rw [forecast_of_empty_slot rfl]
    simp [State.forecast, State.pending, hv, hsum, emitted]

/-! #### R181: every step keeps the refinement invariant -/

theorem streamInv_iff_forecast (s : State) :
    StreamInv s ↔
      (s.forecast []).emitted = (scan (ingested s.hist)).out ∧
      (s.forecast []).residue = (scan (ingested s.hist)).res := by
  simp [StreamInv, State.forecast]

/-- R172, R181: a block that agrees with `Scan` still does after any more bytes. -/
theorem StreamInv.forecast_eq {s : State} (hs : StreamInv s) (bytes : List Byte) :
    (s.forecast bytes).emitted = (scan (ingested s.hist ++ bytes)).out ∧
    (s.forecast bytes).residue = (scan (ingested s.hist ++ bytes)).res := by
  obtain ⟨hout, hres⟩ := hs
  obtain ⟨hacc, haccres⟩ := scan_append s.acc bytes
  obtain ⟨hstream, hstreamres⟩ := scan_append (ingested s.hist) bytes
  refine ⟨?_, ?_⟩
  · rw [hstream, ← hout, ← hres, State.forecast, hacc, List.append_assoc _ (scan s.acc).out]
  · rw [hstreamres, ← hres, State.forecast, haccres]

theorem StreamInv.sameBlock {s t : State} (h : SameBlock s t) (hs : StreamInv s) : StreamInv t := by
  rw [h]
  exact hs

theorem StreamInv.ingest {s : State} (hs : StreamInv s) (b : Byte) : StreamInv ((s.append b).record (.ingest b)) := by
  rw [streamInv_iff_forecast, forecast_ingest]
  simpa using hs.forecast_eq [b]

theorem StreamInv.work {s t : State} (hs : StreamInv s) (h : Work s t) : StreamInv t := by
  obtain ⟨-, -, -, hin⟩ := h.frame
  rw [streamInv_iff_forecast] at hs ⊢
  rwa [h.forecast_eq, hin]

/-- An event of neither stream, beside an unchanged accumulator and slot. -/
theorem StreamInv.snoc {s t : State} (hs : StreamInv s) (e : Event) (hh : t.hist = s.hist ++ [e])
    (ha : t.acc = s.acc) (hp : t.pending = s.pending) (hi : ingested [e] = []) (he : emitted [e] = []) :
    StreamInv t := by
  simpa [StreamInv, hh, ha, hp, hi, he] using hs

theorem StreamInv.effect {s t : State} (h : Effect s t) (hs : StreamInv s) : StreamInv t := by
  cases h with
  | hold => exact hs
  | ingest b => exact hs.ingest b
  | extract hc => exact hs.work (.extract hc)
  | discard hc => exact hs.work (.discard hc)
  | decOk hc => exact hs.work (.decOk hc)
  | decBad hc => exact hs.work (.decBad hc)
  | pop smp => exact hs.snoc (.pop smp) rfl rfl rfl rfl rfl
  | startOk => exact hs.snoc .startOk rfl rfl rfl rfl rfl
  | startFail => exact hs.snoc .openFail rfl rfl rfl rfl rfl
  | stop => exact hs.snoc .stop rfl rfl rfl rfl rfl
  | endOfStream => exact hs.snoc (.srcEnd .eos) rfl rfl rfl rfl rfl
  | readFailure => exact hs.snoc (.srcEnd .readFail) rfl rfl rfl rfl rfl
  | reset => exact streamInv_resetWith s.params

/-- Settles O48: a byte extends both streams (`StreamInv.forecast_eq`), SYNC and DEC do what is foreseen
(`Work.forecast_eq`), and the other effects concern neither stream. -/
theorem stepKeepsStreamRefinement : Obligations.StepKeepsStreamRefinement := fun _ _ hl hs h =>
  step_keeps_of_effect StreamInv.sameBlock StreamInv.effect hl hs h

/-! #### R174, R182: schedules -/

/-- R174: no interleaving with SYNC, DEC and POP changes the forecast. -/
theorem Interleaved.forecast_eq {bytes : List Byte} {s t : State} (h : Interleaved (.pop :: drainSteps) bytes s t) :
    t.forecast [] = s.forecast bytes := by
  induction h with
  | @input s u t b bytes hr hu _ ih =>
    have hx : exec (.portIngest b) s = _ := if_pos hr
    cases hx.symm.trans hu
    rw [ih, forecast_ingest]
  | @work s u t i bytes hi he hu _ ih =>
    rw [ih]
    obtain rfl | hi := List.mem_cons.mp hi
    · cases hq : s.outq with
      | nil =>
        cases (exec_pop_of_empty s hq).symm.trans hu
        rfl
      | cons smp rest =>
        cases (exec_pop_of_cons s smp rest hq).symm.trans hu
        exact forecast_pop ..
    · exact (Work.of_exec hi he hu).forecast_eq bytes
  | done => rfl

/-- Settles O54: what both blocks emitted begins the same `Scan`, and is all of it when they are drained (O53); an
interleaving ends as was forecast where it began. -/
theorem parametersAndSchedulesDoNotChangeOutput : Obligations.ParametersAndSchedulesDoNotChangeOutput := by
  refine ⟨fun s t hs ht hin => ?_, fun bytes s t h hv hd => ?_⟩
  · obtain ⟨hpre, hall⟩ := emittedIsPartOfScan s hs
    obtain ⟨hpre', hall'⟩ := emittedIsPartOfScan t ht
    rw [hin] at hpre hall
    refine ⟨List.prefix_or_prefix_of_prefix hpre hpre', fun hd hd' => ?_⟩
    obtain ⟨hv, hshort⟩ := s.drained_iff.mp hd
    obtain ⟨hv', hshort'⟩ := t.drained_iff.mp hd'
    obtain ⟨hout, hres⟩ := hall hv hshort
    obtain ⟨hout', hres'⟩ := hall' hv' hshort'
    exact ⟨hout.trans hout'.symm, hres.trans hres'.symm⟩
  · have hf := h.forecast_eq
    rwa [forecast_of_drained hd, forecast_of_empty_slot hv, Forecast.mk.injEq] at hf

/-! #### R92, R183: DRAIN -/

/-- What DRAIN does: work, one step after the other. -/
abbrev Works : State → State → Prop := Relation.ReflTransGen Work

theorem workUntil_of_no_move {s : State} (h : firstMove s [.dec, .sync] = none) (fuel : Nat) :
    workUntil (fun _ => false) fuel s = s := by
  cases fuel <;> simp [workUntil, h]

/-- A move of DEC or SYNC is work, and the rest of the work follows it. -/
theorem workUntil_of_move {s : State} (h : firstMove s [.dec, .sync] ≠ none) :
    ∃ t, Work s t ∧ ∀ fuel, workUntil (fun _ => false) (fuel + 1) s = workUntil (fun _ => false) fuel t := by
  obtain ⟨⟨i, rest⟩, hm⟩ := Option.ne_none_iff_exists'.mp h
  obtain ⟨hi, he⟩ := firstMove_work s i rest hm
  obtain ⟨t, ht, -⟩ := exec_effect i s (firstMove_levelH hm)
  exact ⟨t, .of_exec hi he ht, fun fuel => by simp [workUntil, hm, ht]⟩

/-- R119: with enough steps the work comes to its end. -/
theorem workUntil_works {s : State} {fuel : Nat} (hf : s.workLeft ≤ fuel) :
    Works s (workUntil (fun _ => false) fuel s) ∧
    firstMove (workUntil (fun _ => false) fuel s) [.dec, .sync] = none := by
  induction fuel generalizing s with
  | zero =>
    have hn : firstMove s [.dec, .sync] = none := by
      by_contra h
      obtain ⟨t, ht, -⟩ := workUntil_of_move h
      exact absurd ht.workLeft_lt (by omega)
    exact ⟨.refl, hn⟩
  | succ fuel ih =>
    by_cases hn : firstMove s [.dec, .sync] = none
    · rw [workUntil_of_no_move hn]
      exact ⟨.refl, hn⟩
    · obtain ⟨t, ht, hrest⟩ := workUntil_of_move hn
      have hlt := ht.workLeft_lt
      obtain ⟨hworks, hend⟩ := ih (s := t) (by omega)
      rw [hrest]
      exact ⟨.head ht hworks, hend⟩

theorem workLeft_le_workBound (s : State) : s.workLeft ≤ s.workBound :=
  Nat.add_le_add_left (Bool.toNat_le s.candValid) _

theorem Works.frame {s t : State} (h : Works s t) : t.params = s.params ∧ t.run = s.run ∧ t.nIn = s.nIn := by
  induction h with
  | refl => exact ⟨rfl, rfl, rfl⟩
  | tail _ hw ih =>
    obtain ⟨hp, hr, hin⟩ := ih
    obtain ⟨hp', hr', hin', -⟩ := hw.frame
    exact ⟨hp'.trans hp, hr'.trans hr, hin'.trans hin⟩

theorem Works.forecast_eq {s t : State} (h : Works s t) (bytes : List Byte) : t.forecast bytes = s.forecast bytes := by
  induction h with
  | refl => rfl
  | tail _ hw ih => exact (hw.forecast_eq bytes).trans ih

theorem Works.emits {s t : State} (h : Works s t) :
    ∃ new, emitted t.hist = emitted s.hist ++ new ∧ t.outq = s.outq ++ new := by
  induction h with
  | refl => exact ⟨[], by simp, by simp⟩
  | tail _ hw ih =>
    obtain ⟨new, he, hq⟩ := ih
    obtain ⟨more, he', hq'⟩ := hw.emits
    exact ⟨new ++ more, by rw [he', he, List.append_assoc], by rw [hq', hq, List.append_assoc]⟩

/-- R183: a running block that always has room holds only when it is drained. -/
theorem drained_of_no_move {s : State} (hr : s.run = .running) (hq : s.params.qCap = none)
    (h : firstMove s [.dec, .sync] = none) : s.drained = true := by
  obtain hslot | ⟨-, -, c, hc, -⟩ :=
    (runningBlockHoldsOnlyForBytesOrSink s hr).mp (not_enabled_of_firstMove_none h)
  · exact s.drained_iff.mpr hslot
  · simp [hq] at hc

/-- Settles O60: DRAIN works until nothing moves (`workUntil_works`); the block is then drained, so the forecast has
come true, and what was emitted on the way is in the queue. -/
theorem drainReachesScan : Obligations.DrainReachesScan := by
  intro s hr hq
  obtain ⟨hworks, hend⟩ := workUntil_works (workLeft_le_workBound s)
  rw [← State.drain] at hworks hend
  obtain ⟨hp, hrun, hin⟩ := hworks.frame
  obtain ⟨new, he, hout⟩ := hworks.emits
  have hd : s.drain.drained = true := drained_of_no_move (hrun.trans hr) (by rw [hp, hq]) hend
  have hf := hworks.forecast_eq []
  rw [forecast_of_drained hd, State.forecast, Forecast.mk.injEq, he, List.append_nil] at hf
  obtain ⟨hemit, hacc, -⟩ := hf
  rw [List.append_assoc, List.append_cancel_left_eq] at hemit
  refine ⟨hacc, (s.drain.drained_iff.mp hd).1, ?_, hrun.trans hr, hin, hend⟩
  rw [hout, hemit, List.append_assoc]

end Sys2Proof.Machine

/-! ### R215: RESET, STOP and SRC_END in their clock cycle -/

namespace Sys2Proof.Machine

/-- Settles O40: RESET is the control event of the cycle whatever else is asserted, and it drops the turns that the
cycle has dealt out. -/
theorem resetWinsItsCycle : Obligations.ResetWinsItsCycle := by
  intro s ports order later ht hi hrst
  have hc : controlInstr (s.openCycle ports later).view = some .reset := if_pos hrst
  exact (step_of_control ht hi hc).trans (exec_reset _)

/-- R89, R215(2): with `stop` or `src_end` the control event of a running block is a halt, whose cause is that of
SRC_END if `src_end` is asserted. -/
theorem controlInstr_halts {v : PortView} (hr : v.running = true) (hrst : v.ports.rst = false)
    (h : v.ports.stop = true ∨ v.ports.srcEnd = true) :
    ∃ i c e, controlInstr v = some i ∧
      Condition.code c = (if v.ports.srcEnd then (if v.ports.srcEndCause then 4 else 5) else 6) ∧
      ∀ s : State, s.run = .running → exec i s = .next (s.halt c e) := by
  cases hend : v.ports.srcEnd with
  | false =>
    have hstop : v.ports.stop = true := by simpa [hend] using h
    exact ⟨.stop, _, _, by simp [controlInstr, hr, hrst, hend, hstop], rfl, fun _ => exec_stop_of_running⟩
  | true =>
    cases hcause : v.ports.srcEndCause with
    | false =>
      exact ⟨.srcEndEos, _, _, by simp [controlInstr, hr, hrst, hend, hcause], rfl,
        fun _ => exec_srcEndEos_of_running⟩
    | true =>
      exact ⟨.srcEndReadFail, _, _, by simp [controlInstr, hr, hrst, hend, hcause], rfl,
        fun _ => exec_srcEndReadFail_of_running⟩

/-- R64: the only data step of a stopped block is POP. -/
theorem eq_pop_of_agentInstr {s : State} (hr : s.run = .stopped) {a : Agent} {i : Instr}
    (h : agentInstr s a = some i) : i = .pop := by
  have hrun : s.running = false := s.running_eq_false_iff.mpr hr
  cases a with
  | sink =>
    simp only [agentInstr, outputInstr, Option.ite_none_right_eq_some, Option.some.injEq] at h
    exact h.2.symm
  | src => simp [agentInstr, inputInstr, State.view, State.inReady, hrun] at h
  | sync => simp [agentInstr, State.scanFree, hrun] at h
  | dec => simp [agentInstr, State.canDecOk, State.canDecBad, hrun] at h
  | ctrl => cases h

/-- Settles O41: the control event of the cycle is a halt (`controlInstr_halts`), which leaves the data path as it is
and the block stopped. -/
theorem stopComesBeforeDataSteps : Obligations.StopComesBeforeDataSteps := by
  intro s ports order later ht hi hr hrst h
  obtain ⟨i, c, e, hc, hcode, hexec⟩ :=
    controlInstr_halts (v := (s.openCycle ports later).view) (s.running_iff.mpr hr) hrst h
  exact ⟨_, (step_of_control ht hi hc).trans (hexec _ hr), rfl, rfl, hcode, rfl, rfl, rfl, rfl, rfl, rfl, rfl,
    fun _ _ => eq_pop_of_agentInstr rfl⟩

end Sys2Proof.Machine
